-- ==== Sys2Proof/Word.lean ====
section
/-! DEFINITION. The word types of the machine (spec 00_scope.md R5, R7) and their plainest arithmetic. -/

namespace Sys2Proof

/-- One byte of memory or one V register (R5 `REG_WIDTH`). -/
abbrev Byte := BitVec 8

/-- A 16-bit quantity: an instruction word, `PC`, `I`, a stack entry, a key mask (R5, R14 to R19). -/
abbrev Word := BitVec 16

/-- A 4-bit field `N` of an instruction word (R61). -/
abbrev Nibble := BitVec 4

/-- A 12-bit address field `NNN` (R61). -/
abbrev Addr := BitVec 12

/-- One framebuffer row: bit `63 - x` is the pixel in column `x` (R20). -/
abbrev Row := BitVec 64

/-- The number of a general register: all 16 values are legal wherever an X or Y field stands (R11, R63). -/
abbrev Reg := Fin 16

/-- `zext_16` of a byte (R8). -/
def zext16 (b : Byte) : Word := b.setWidth 16

/-- `zext_16` of an address field (R8, R63). -/
def addrWord (a : Addr) : Word := a.setWidth 16

end Sys2Proof
end

