-- ==== Sys2Proof/Config.lean ====
section
/-! DEFINITION. What is fixed for one machine (the parameters of R6), what the outside world supplies at a frame's
end, and the free values: inputs under no law (R134, R222, R233), each a constant with no body. -/

namespace Sys2Proof

/-- The `FX29_MODE` parameter (R6, R153). -/
inductive Fx29Mode where
  | corrected
  | source
  deriving DecidableEq, Repr

/-- The `FX0A_MODE` parameter (R6, R193). -/
inductive Fx0aMode where
  | edge
  | source
  deriving DecidableEq, Repr

/-- The `DRAW_Y_MODULUS` parameter: 32 or 64 (R6, R172). -/
inductive DrawYModulus where
  | m32
  | m64
  deriving DecidableEq, Repr

/-- The number a `DRAW_Y_MODULUS` value stands for (R172). -/
def DrawYModulus.toNat : DrawYModulus → Nat
  | .m32 => 32
  | .m64 => 64

/-- The four implementation parameters of R6. They are fixed for one machine: no command changes them. -/
structure Params where
  font : Vector Byte 80
  fx29Mode : Fx29Mode
  fx0aMode : Fx0aMode
  drawYModulus : DrawYModulus
  deriving DecidableEq, Repr

/-- What the host supplies when a frame ends: the key sample `keys_in` of `Tick` (R222), and whether it
presents the frame and so issues `PresentAck` (R90, R233). -/
structure FrameInput where
  keys : Word
  present : Bool
  deriving DecidableEq, Repr

namespace Config

/-- `MEM_SIZE`: valid addresses are 0 to 4095 (R5). -/
abbrev memSize : Nat := 4096

/-- `FONT_OFFSET` (R5). -/
abbrev fontOffset : Nat := 0x50

/-- `ROM_BASE`: the first address of the ROM image and the reset value of `PC` (R5). -/
abbrev romBase : Nat := 512

/-- `ROM_MAX` (R5). -/
abbrev romMax : Nat := 3584

/-- `HALT_PC`: the sentinel a decode failure writes to `PC` (R5, R86). -/
abbrev haltPc : Word := 4096

/-- `INVALID_OPCODE`: what fetch answers when `PC` is 4096 or more (R5, R81). -/
abbrev invalidOpcode : Word := 0xFFFF

/-- FREE VALUE (R134, U6): the random byte of the `n`-th draw the model's input queue does not fix. -/
opaque freeRnd : Nat → BitVec 8

/-- FREE VALUE (R222, U7): the key sample of the `n`-th frame end the model's input queue does not fix. -/
opaque freeKeys : Nat → BitVec 16

/-- FREE VALUE (R90, R233): whether the host presents at the `n`-th frame end the input queue does not fix. -/
opaque freePresent : Nat → Bool

end Config
end Sys2Proof
end

