-- ==== Sys2Proof/Syntax.lean ====
section
/-! DEFINITION. The 34 instructions of R66 (spec/opcode_table.json, row by row), and why bytes are no instruction. -/

namespace Sys2Proof

/-- One constructor per row of R66, in the table's order; the pattern is the instruction's normative name (R9). -/
inductive Instr where
  /-- `00E0` -/
  | cls
  /-- `00EE` -/
  | ret
  /-- `1NNN` -/
  | jp (nnn : Addr)
  /-- `2NNN` -/
  | call (nnn : Addr)
  /-- `3XNN` -/
  | seImm (x : Reg) (nn : Byte)
  /-- `4XNN` -/
  | sneImm (x : Reg) (nn : Byte)
  /-- `5XY0` -/
  | seReg (x y : Reg)
  /-- `6XNN` -/
  | ldImm (x : Reg) (nn : Byte)
  /-- `7XNN` -/
  | addImm (x : Reg) (nn : Byte)
  /-- `8XY0` -/
  | ldReg (x y : Reg)
  /-- `8XY1` -/
  | orReg (x y : Reg)
  /-- `8XY2` -/
  | andReg (x y : Reg)
  /-- `8XY3` -/
  | xorReg (x y : Reg)
  /-- `8XY4` -/
  | addReg (x y : Reg)
  /-- `8XY5` -/
  | subReg (x y : Reg)
  /-- `8XY6` -/
  | shrReg (x y : Reg)
  /-- `8XY7` -/
  | subnReg (x y : Reg)
  /-- `8XYE` -/
  | shlReg (x y : Reg)
  /-- `9XY0` -/
  | sneReg (x y : Reg)
  /-- `ANNN` -/
  | ldI (nnn : Addr)
  /-- `BNNN` -/
  | jpV0 (nnn : Addr)
  /-- `CXNN` -/
  | rnd (x : Reg) (nn : Byte)
  /-- `DXYN` -/
  | drw (x y : Reg) (n : Nibble)
  /-- `EX9E` -/
  | skp (x : Reg)
  /-- `EXA1` -/
  | sknp (x : Reg)
  /-- `FX07` -/
  | ldVxDt (x : Reg)
  /-- `FX0A` -/
  | ldVxKey (x : Reg)
  /-- `FX15` -/
  | ldDtVx (x : Reg)
  /-- `FX18` -/
  | ldStVx (x : Reg)
  /-- `FX1E` -/
  | addI (x : Reg)
  /-- `FX29` -/
  | ldFont (x : Reg)
  /-- `FX33` -/
  | ldBcd (x : Reg)
  /-- `FX55` -/
  | ldMemRegs (x : Reg)
  /-- `FX65` -/
  | ldRegsMem (x : Reg)
  deriving DecidableEq, Repr

/-- Why bytes are no instruction. -/
inductive DecodeError where
  /-- The word matches no entry of R66 (R68). Executing it is the halt of R86, not a stop of the model. -/
  | illegalOpcode (w : Word)
  /-- Fewer than two bytes were given (R60). No step of the machine decodes fewer. -/
  | truncated
  deriving DecidableEq, Repr

/-- One (mask, match) entry of the dispatch table (R64, R66). -/
structure OpcodeRow where
  pattern : String
  mask : Word
  value : Word
  deriving DecidableEq, Repr

/-- The match test `(opcode & mask) == pattern` (R64). -/
def OpcodeRow.matchesWord (r : OpcodeRow) (w : Word) : Bool := w &&& r.mask == r.value

end Sys2Proof
end

