-- ==== Sys2Proof/WellFormed.lean ====
section
/-! DEFINITION. What is well formed: an instruction word (R67, R68), an instruction term, a ROM image (R250). -/

namespace Sys2Proof

/-- R67: which words are instructions, by major opcode `op[15:12]`. Every other word is illegal (R68). -/
def legalWord (w : Word) : Bool :=
  let low := (w.extractLsb' 0 4).toNat
  let byte := (w.extractLsb' 0 8).toNat
  match (w.extractLsb' 12 4).toNat with
  | 0 => w == 0x00E0 || w == 0x00EE
  | 5 => low == 0
  | 8 => low ≤ 7 || low == 0xE
  | 9 => low == 0
  | 0xE => byte == 0x9E || byte == 0xA1
  | 0xF => [0x07, 0x0A, 0x15, 0x18, 0x1E, 0x29, 0x33, 0x55, 0x65].contains byte
  | _ => true

/-- R63: every value of every operand field is legal, and each field's type has exactly the encoding's values,
so no term of `Instr` is ill formed: what can be ill formed is a word (`legalWord`). -/
def Instr.wellFormed (_ : Instr) : Bool := true

/-- R250: a ROM image is at most 3584 bytes. -/
def romFits (rom : List Byte) : Bool := rom.length ≤ Config.romMax

end Sys2Proof
end

