-- ==== Sys2Proof/Decode.lean ====
section
/-! DEFINITION. The fields of R61, the decoder (R64, R67, R83), the dispatch table (R66) and the encoder (R62). -/

namespace Sys2Proof

/-- `op[15:12]`, the major opcode (R61). -/
def fieldMajor (w : Word) : Nibble := w.extractLsb' 12 4

/-- `X = op[11:8]` (R61). -/
def fieldX (w : Word) : Reg := (w.extractLsb' 8 4).toFin

/-- `Y = op[7:4]` (R61). -/
def fieldY (w : Word) : Reg := (w.extractLsb' 4 4).toFin

/-- `N = op[3:0]` (R61). -/
def fieldN (w : Word) : Nibble := w.extractLsb' 0 4

/-- `NN = op[7:0]` (R61). -/
def fieldNN (w : Word) : Byte := w.extractLsb' 0 8

/-- `NNN = op[11:0]` (R61). -/
def fieldNNN (w : Word) : Addr := w.extractLsb' 0 12

/-- Major opcode 0 (R67): the whole word decides. -/
def decodeZ (w : Word) : Except DecodeError Instr :=
  if w = 0x00E0 then .ok .cls
  else if w = 0x00EE then .ok .ret
  else .error (.illegalOpcode w)

/-- Major opcode 8 (R67): `op[3:0]` selects the instruction. -/
def decodeAlu (w : Word) : Except DecodeError Instr :=
  let x := fieldX w
  let y := fieldY w
  match (fieldN w).toNat with
  | 0 => .ok (.ldReg x y)
  | 1 => .ok (.orReg x y)
  | 2 => .ok (.andReg x y)
  | 3 => .ok (.xorReg x y)
  | 4 => .ok (.addReg x y)
  | 5 => .ok (.subReg x y)
  | 6 => .ok (.shrReg x y)
  | 7 => .ok (.subnReg x y)
  | 14 => .ok (.shlReg x y)
  | _ => .error (.illegalOpcode w)

/-- Major opcode E (R67): `op[7:0]` selects the instruction. -/
def decodeKey (w : Word) : Except DecodeError Instr :=
  if fieldNN w = 0x9E then .ok (.skp (fieldX w))
  else if fieldNN w = 0xA1 then .ok (.sknp (fieldX w))
  else .error (.illegalOpcode w)

/-- Major opcode F (R67): `op[7:0]` selects the instruction. -/
def decodeMisc (w : Word) : Except DecodeError Instr :=
  if fieldNN w = 0x07 then .ok (.ldVxDt (fieldX w))
  else if fieldNN w = 0x0A then .ok (.ldVxKey (fieldX w))
  else if fieldNN w = 0x15 then .ok (.ldDtVx (fieldX w))
  else if fieldNN w = 0x18 then .ok (.ldStVx (fieldX w))
  else if fieldNN w = 0x1E then .ok (.addI (fieldX w))
  else if fieldNN w = 0x29 then .ok (.ldFont (fieldX w))
  else if fieldNN w = 0x33 then .ok (.ldBcd (fieldX w))
  else if fieldNN w = 0x55 then .ok (.ldMemRegs (fieldX w))
  else if fieldNN w = 0x65 then .ok (.ldRegsMem (fieldX w))
  else .error (.illegalOpcode w)

/-- Decode one word: one of the 34 instructions, or illegal by name (R64, R67, R83). It reads no state. -/
def decodeWord (w : Word) : Except DecodeError Instr :=
  match (fieldMajor w).toNat with
  | 0 => decodeZ w
  | 1 => .ok (.jp (fieldNNN w))
  | 2 => .ok (.call (fieldNNN w))
  | 3 => .ok (.seImm (fieldX w) (fieldNN w))
  | 4 => .ok (.sneImm (fieldX w) (fieldNN w))
  | 5 => if fieldN w = 0 then .ok (.seReg (fieldX w) (fieldY w)) else .error (.illegalOpcode w)
  | 6 => .ok (.ldImm (fieldX w) (fieldNN w))
  | 7 => .ok (.addImm (fieldX w) (fieldNN w))
  | 8 => decodeAlu w
  | 9 => if fieldN w = 0 then .ok (.sneReg (fieldX w) (fieldY w)) else .error (.illegalOpcode w)
  | 10 => .ok (.ldI (fieldNNN w))
  | 11 => .ok (.jpV0 (fieldNNN w))
  | 12 => .ok (.rnd (fieldX w) (fieldNN w))
  | 13 => .ok (.drw (fieldX w) (fieldY w) (fieldN w))
  | 14 => decodeKey w
  | _ => decodeMisc w

/-- The byte order of a stored word (R41): the first byte, at the lower address, is `op[15:8]`. -/
def bytesWord (hi lo : Byte) : Word := hi ++ lo

/-- The two bytes of a word as memory holds them, lower address first (R41, R60). -/
def wordBytes (w : Word) : List Byte := [w.extractLsb' 8 8, w.extractLsb' 0 8]

/-- Decode the first instruction of a list of bytes and give the bytes after it (R60: always two bytes). -/
def decodeBytes : List Byte → Except DecodeError (Instr × List Byte)
  | hi :: lo :: rest =>
    match decodeWord (bytesWord hi lo) with
    | .ok i => .ok (i, rest)
    | .error e => .error e
  | _ => .error .truncated

/-- The instruction the decoder reads from a word numbered as spec/opcode_table.json numbers its bits. -/
def decodeTableWord (nbits w : Nat) : Option Instr :=
  match decodeBytes (wordBytes (BitVec.ofNat 16 (w % 2 ^ nbits))) with
  | .ok (i, _) => some i
  | .error _ => none

/-- The four bits of a register field. -/
def regBits (r : Reg) : Nibble := BitVec.ofFin r

/-- The word of an instruction, nibble by nibble from the formats of R62 and the patterns of R66. -/
def encode : Instr → Word
  | .cls => 0x0#4 ++ 0x0#4 ++ 0xE#4 ++ 0x0#4
  | .ret => 0x0#4 ++ 0x0#4 ++ 0xE#4 ++ 0xE#4
  | .jp nnn => 0x1#4 ++ nnn
  | .call nnn => 0x2#4 ++ nnn
  | .seImm x nn => 0x3#4 ++ regBits x ++ nn
  | .sneImm x nn => 0x4#4 ++ regBits x ++ nn
  | .seReg x y => 0x5#4 ++ regBits x ++ regBits y ++ 0x0#4
  | .ldImm x nn => 0x6#4 ++ regBits x ++ nn
  | .addImm x nn => 0x7#4 ++ regBits x ++ nn
  | .ldReg x y => 0x8#4 ++ regBits x ++ regBits y ++ 0x0#4
  | .orReg x y => 0x8#4 ++ regBits x ++ regBits y ++ 0x1#4
  | .andReg x y => 0x8#4 ++ regBits x ++ regBits y ++ 0x2#4
  | .xorReg x y => 0x8#4 ++ regBits x ++ regBits y ++ 0x3#4
  | .addReg x y => 0x8#4 ++ regBits x ++ regBits y ++ 0x4#4
  | .subReg x y => 0x8#4 ++ regBits x ++ regBits y ++ 0x5#4
  | .shrReg x y => 0x8#4 ++ regBits x ++ regBits y ++ 0x6#4
  | .subnReg x y => 0x8#4 ++ regBits x ++ regBits y ++ 0x7#4
  | .shlReg x y => 0x8#4 ++ regBits x ++ regBits y ++ 0xE#4
  | .sneReg x y => 0x9#4 ++ regBits x ++ regBits y ++ 0x0#4
  | .ldI nnn => 0xA#4 ++ nnn
  | .jpV0 nnn => 0xB#4 ++ nnn
  | .rnd x nn => 0xC#4 ++ regBits x ++ nn
  | .drw x y n => 0xD#4 ++ regBits x ++ regBits y ++ n
  | .skp x => 0xE#4 ++ regBits x ++ 0x9E#8
  | .sknp x => 0xE#4 ++ regBits x ++ 0xA1#8
  | .ldVxDt x => 0xF#4 ++ regBits x ++ 0x07#8
  | .ldVxKey x => 0xF#4 ++ regBits x ++ 0x0A#8
  | .ldDtVx x => 0xF#4 ++ regBits x ++ 0x15#8
  | .ldStVx x => 0xF#4 ++ regBits x ++ 0x18#8
  | .addI x => 0xF#4 ++ regBits x ++ 0x1E#8
  | .ldFont x => 0xF#4 ++ regBits x ++ 0x29#8
  | .ldBcd x => 0xF#4 ++ regBits x ++ 0x33#8
  | .ldMemRegs x => 0xF#4 ++ regBits x ++ 0x55#8
  | .ldRegsMem x => 0xF#4 ++ regBits x ++ 0x65#8

/-- The bytes of an instruction as memory holds them (R41, R60). -/
def encodeBytes (i : Instr) : List Byte := wordBytes (encode i)

/-- The row of R66 an instruction stands in: pattern, mask, match. -/
def rowOf : Instr → OpcodeRow
  | .cls => ⟨"00E0", 0xFFFF, 0x00E0⟩
  | .ret => ⟨"00EE", 0xFFFF, 0x00EE⟩
  | .jp _ => ⟨"1NNN", 0xF000, 0x1000⟩
  | .call _ => ⟨"2NNN", 0xF000, 0x2000⟩
  | .seImm _ _ => ⟨"3XNN", 0xF000, 0x3000⟩
  | .sneImm _ _ => ⟨"4XNN", 0xF000, 0x4000⟩
  | .seReg _ _ => ⟨"5XY0", 0xF00F, 0x5000⟩
  | .ldImm _ _ => ⟨"6XNN", 0xF000, 0x6000⟩
  | .addImm _ _ => ⟨"7XNN", 0xF000, 0x7000⟩
  | .ldReg _ _ => ⟨"8XY0", 0xF00F, 0x8000⟩
  | .orReg _ _ => ⟨"8XY1", 0xF00F, 0x8001⟩
  | .andReg _ _ => ⟨"8XY2", 0xF00F, 0x8002⟩
  | .xorReg _ _ => ⟨"8XY3", 0xF00F, 0x8003⟩
  | .addReg _ _ => ⟨"8XY4", 0xF00F, 0x8004⟩
  | .subReg _ _ => ⟨"8XY5", 0xF00F, 0x8005⟩
  | .shrReg _ _ => ⟨"8XY6", 0xF00F, 0x8006⟩
  | .subnReg _ _ => ⟨"8XY7", 0xF00F, 0x8007⟩
  | .shlReg _ _ => ⟨"8XYE", 0xF00F, 0x800E⟩
  | .sneReg _ _ => ⟨"9XY0", 0xF00F, 0x9000⟩
  | .ldI _ => ⟨"ANNN", 0xF000, 0xA000⟩
  | .jpV0 _ => ⟨"BNNN", 0xF000, 0xB000⟩
  | .rnd _ _ => ⟨"CXNN", 0xF000, 0xC000⟩
  | .drw _ _ _ => ⟨"DXYN", 0xF000, 0xD000⟩
  | .skp _ => ⟨"EX9E", 0xF0FF, 0xE09E⟩
  | .sknp _ => ⟨"EXA1", 0xF0FF, 0xE0A1⟩
  | .ldVxDt _ => ⟨"FX07", 0xF0FF, 0xF007⟩
  | .ldVxKey _ => ⟨"FX0A", 0xF0FF, 0xF00A⟩
  | .ldDtVx _ => ⟨"FX15", 0xF0FF, 0xF015⟩
  | .ldStVx _ => ⟨"FX18", 0xF0FF, 0xF018⟩
  | .addI _ => ⟨"FX1E", 0xF0FF, 0xF01E⟩
  | .ldFont _ => ⟨"FX29", 0xF0FF, 0xF029⟩
  | .ldBcd _ => ⟨"FX33", 0xF0FF, 0xF033⟩
  | .ldMemRegs _ => ⟨"FX55", 0xF0FF, 0xF055⟩
  | .ldRegsMem _ => ⟨"FX65", 0xF0FF, 0xF065⟩

/-- The dispatch table of R66 in the document's order. The decoder does not scan it: R64 makes the order not
architectural, and a statement says that both give the same answer on every word. -/
def opcodeTable : List OpcodeRow :=
  [rowOf .cls, rowOf .ret, rowOf (.jp 0), rowOf (.call 0), rowOf (.seImm 0 0), rowOf (.sneImm 0 0),
    rowOf (.seReg 0 0), rowOf (.ldImm 0 0), rowOf (.addImm 0 0)]
  ++ [rowOf (.ldReg 0 0), rowOf (.orReg 0 0), rowOf (.andReg 0 0), rowOf (.xorReg 0 0), rowOf (.addReg 0 0),
    rowOf (.subReg 0 0), rowOf (.shrReg 0 0), rowOf (.subnReg 0 0), rowOf (.shlReg 0 0), rowOf (.sneReg 0 0)]
  ++ [rowOf (.ldI 0), rowOf (.jpV0 0), rowOf (.rnd 0 0), rowOf (.drw 0 0 0), rowOf (.skp 0), rowOf (.sknp 0)]
  ++ [rowOf (.ldVxDt 0), rowOf (.ldVxKey 0), rowOf (.ldDtVx 0), rowOf (.ldStVx 0), rowOf (.addI 0),
    rowOf (.ldFont 0), rowOf (.ldBcd 0), rowOf (.ldMemRegs 0), rowOf (.ldRegsMem 0)]

end Sys2Proof
end

