-- ==== Sys2Proof/Machine/State.lean ====
section
/-! DEFINITION. The state of the machine (R10), its reset value (R25), and the names of every stop. -/

namespace Sys2Proof.Machine

/-- Why a step has no successor state (R216). Each is safe: the model stops where the source says nothing. -/
inductive Fault where
  /-- R46: a byte of a data access of `DXYN`, `FX33`, `FX55` or `FX65` lies at 4096 or above. Safe. -/
  | dataAddressOutOfRange
  /-- R47: the fetch at `PC = 4095`, whose second byte would lie at 4096. Safe. -/
  | fetchStraddle
  deriving DecidableEq, Repr

/-- What the model gives no result state. -/
inductive Refusal where
  /-- An instruction with no meaning yet: raised only by an arm of `exec`, and no arm raises it. Safe. -/
  | notModelled (mnemonic : String)
  /-- R251: `Reset` with a ROM of more than 3584 bytes. Raised by the `Reset` command only. Safe. -/
  | romTooLarge
  deriving DecidableEq, Repr

/-- Memory: the bytes that differ from what the default reset leaves, at strictly rising addresses (R22). -/
abbrev Memory := List Host.Cell

/-- The complete mutable state of the machine (R10), and after it the model's own fields. -/
structure State where
  /-- `mem[0..4095]` (R22). -/
  mem : Memory
  /-- `V[0..15]`; `V[15]` is VF (R11, R12). -/
  v : Vector Byte 16
  /-- The index register `I` (R15). -/
  i : Word
  /-- The program counter `PC` (R14). -/
  pc : Word
  /-- `stack[0..15]`, a register array of its own (R16). -/
  stack : Vector Word 16
  /-- The stack pointer `SP`, 4 bits (R17). -/
  sp : BitVec 4
  /-- The delay timer `DT` (R18). -/
  dt : Byte
  /-- The sound timer `ST` (R18). -/
  st : Byte
  /-- `prevKeyMask` (R19). -/
  prevKeyMask : Word
  /-- `keyMask` (R19). -/
  keyMask : Word
  /-- `screen[0..31]` (R20). -/
  screen : Vector Row 32
  /-- `shouldDraw` (R21). -/
  shouldDraw : Bool
  /-- MODEL'S OWN: the parameters of R6. No step changes them. -/
  params : Params
  /-- MODEL'S OWN: how many `Step` commands of the current frame have run (the host's count, R23, R90). -/
  slot : Fin 9
  /-- MODEL'S OWN: random bytes the host is already known to supply, the next one first (R134). -/
  rndQueue : List Byte
  /-- MODEL'S OWN: how many free random bytes have been drawn. -/
  rndDraws : Nat
  /-- MODEL'S OWN: frame inputs the host is already known to supply, the next one first (R222, R233). -/
  frameQueue : List FrameInput
  /-- MODEL'S OWN: how many free frame inputs have been drawn. -/
  frameDraws : Nat
  deriving DecidableEq, Repr

/-- R25 with an empty ROM and the default parameters. Unlisted memory reads as the font and zeros of R25. -/
def State.reset : State where
  mem := []
  v := Vector.replicate 16 0
  i := 0
  pc := 512
  stack := Vector.replicate 16 0
  sp := 0
  dt := 0
  st := 0
  prevKeyMask := 0
  keyMask := 0
  screen := Vector.replicate 32 0
  shouldDraw := false
  params := defaultParams
  slot := 0
  rndQueue := []
  rndDraws := 0
  frameQueue := []
  frameDraws := 0

/-- The status `Step` returns beside the next state (R88); a function of the state, not stored. -/
inductive StepStatus where
  | advanced
  | waiting
  | decodeFailure
  deriving DecidableEq, Repr

/-- One outcome of a step of this machine. -/
abbrev Outcome := Host.Outcome State Fault Refusal

end Sys2Proof.Machine
end

