-- ==== Sys2Proof/Machine/Ops.lean ====
section
/-! DEFINITION. The named operations over memory, registers, the stack, `PC` and the model's inputs; fetch (R81)
and the halt (R212), which is the machine's one exceptional entry. There is no return from it (R215). -/

namespace Sys2Proof.Machine

/-! ### Memory (R22, R40 to R49) -/

/-- What an unlisted address reads as: the font in 0x50 to 0x9F, zero elsewhere (R25, R44). -/
def background (a : Nat) : Byte :=
  if Config.fontOffset ≤ a then defaultFontBytes.getD (a - Config.fontOffset) 0 else 0

/-- The byte at an address. -/
def Memory.get : Memory → Nat → Byte
  | [], a => background a
  | (k, b) :: rest, a => if a = k then b else Memory.get rest a

/-- The listing of one byte: none if it is what an unlisted address reads as. -/
def cellOf (a : Nat) (b : Byte) : Memory := if b = background a then [] else [(a, b)]

/-- Store one byte, keeping the canonical form. -/
def Memory.set : Memory → Nat → Byte → Memory
  | [], a, b => cellOf a b
  | (k, c) :: rest, a, b =>
    if a < k then cellOf a b ++ (k, c) :: rest
    else if a = k then cellOf a b ++ rest
    else (k, c) :: Memory.set rest a b

/-- The canonical form from an address upward: strictly rising addresses inside memory, nothing listed that an
unlisted address reads as. -/
def Memory.wfFrom : Nat → Memory → Bool
  | _, [] => true
  | lo, (k, b) :: rest => lo ≤ k && k < Config.memSize && b != background k && Memory.wfFrom (k + 1) rest

/-- The canonical form of memory. -/
def Memory.wf (m : Memory) : Bool := Memory.wfFrom 0 m

/-- `n` bytes at ascending addresses (`MemRead`, R8, R41). -/
def readBytes (m : Memory) : Nat → Nat → List Byte
  | _, 0 => []
  | a, n + 1 => m.get a :: readBytes m (a + 1) n

/-- Store bytes at ascending addresses (`MemWrite`, R8, R41). -/
def writeBytes : Memory → Nat → List Byte → Memory
  | m, _, [] => m
  | m, a, b :: bs => writeBytes (m.set a b) (a + 1) bs

/-! ### One setter per field, so that each update has its lemmas once -/

def State.setMem (s : State) (m : Memory) : State := { s with mem := m }
def State.setV (s : State) (v : Vector Byte 16) : State := { s with v := v }
def State.setI (s : State) (w : Word) : State := { s with i := w }
def State.setPc (s : State) (w : Word) : State := { s with pc := w }
def State.setStack (s : State) (k : Vector Word 16) : State := { s with stack := k }
def State.setSp (s : State) (p : BitVec 4) : State := { s with sp := p }
def State.setDt (s : State) (b : Byte) : State := { s with dt := b }
def State.setSt (s : State) (b : Byte) : State := { s with st := b }
def State.setKeys (s : State) (prev now : Word) : State := { s with prevKeyMask := prev, keyMask := now }
def State.setScreen (s : State) (g : Vector Row 32) : State := { s with screen := g }
def State.setShouldDraw (s : State) (b : Bool) : State := { s with shouldDraw := b }
def State.setSlot (s : State) (k : Fin 9) : State := { s with slot := k }
def State.setRnd (s : State) (q : List Byte) (n : Nat) : State := { s with rndQueue := q, rndDraws := n }
def State.setFrameIn (s : State) (q : List FrameInput) (n : Nat) : State :=
  { s with frameQueue := q, frameDraws := n }

/-! ### Registers (R11) -/

/-- `V[x]`: no register is hard-wired. -/
def State.reg (s : State) (x : Reg) : Byte := s.v[x.val]

/-- `V[x] <- b`. -/
def State.setReg (s : State) (x : Reg) (b : Byte) : State := s.setV (s.v.set x.val b)

/-- VF, the flag register `V[15]` (R12). -/
def vf : Reg := 15

/-- The registers with `bytes` loaded from number `k` upward; bytes past `V[15]` go nowhere. -/
def loadRegs (v : Vector Byte 16) : Nat → List Byte → Vector Byte 16
  | _, [] => v
  | k, b :: bs => loadRegs (v.setIfInBounds k b) (k + 1) bs

/-- `V[0]` to `V[x]`, in order. -/
def firstRegs (v : Vector Byte 16) (x : Reg) : List Byte := v.toList.take (x.val + 1)

/-! ### `PC`, skips and the halt -/

/-- The advance of `PC` by 2 after fetch, modulo 65536 (R82). -/
def State.advancePc (s : State) : State := s.setPc (s.pc + 2)

/-- A skip: 2 more when the condition holds, nothing when it does not (R108). -/
def State.skipIf (s : State) (c : Bool) : State := s.setPc (if c then s.pc + 2 else s.pc)

/-- Stay on this instruction: the advanced `PC` less 2 (R192). -/
def State.rewindPc (s : State) : State := s.setPc (s.pc - 2)

/-- The halt, taken by a decode failure (R86, R212): `PC <- 4096` and nothing else. Nothing is saved and there is no
vector and no return (R215). -/
def State.enterHalt (s : State) : State := s.setPc Config.haltPc

/-- The halted predicate (R213). -/
def State.halted (s : State) : Bool := 4096 ≤ s.pc.toNat

/-! ### The stack (R16, R17, R110) -/

/-- `stack[k]` for a 4-bit index. -/
def State.stackAt (s : State) (k : BitVec 4) : Word := s.stack[k.toNat]'k.isLt

/-- Push: store at `stack[SP]`, then `SP <- SP + 1` modulo 16 (R102, R110). -/
def State.push (s : State) (w : Word) : State :=
  (s.setStack (s.stack.set s.sp.toNat w s.sp.isLt)).setSp (s.sp + 1)

/-- Pop: `SP <- SP - 1` modulo 16, the popped entry staying where it is (R100, R110). -/
def State.pop (s : State) : State := s.setSp (s.sp - 1)

/-! ### Data accesses (R46, R157) -/

/-- The address of the `k`-th byte of a data access: `I + k`, without wrap (R40, R46). -/
def State.dataAddr (s : State) (k : Nat) : Nat := s.i.toNat + k

/-- Whether all `n` bytes of a data access lie inside memory; an access of no byte always does (R46). -/
def State.dataInRange (s : State) (n : Nat) : Bool := n == 0 || s.i.toNat + n ≤ Config.memSize

/-- The range check made before any byte moves (R46, R157): the next state, or the fault. -/
def withDataRange (n : Nat) (s t : State) : Outcome :=
  if s.dataInRange n then .next t else .fault .dataAddressOutOfRange

/-! ### Fetch (R81, R47) -/

/-- The word of the next instruction, or the sentinel, or the fault at `PC = 4095`. -/
def fetchWord (s : State) : Except Fault Word :=
  if Config.memSize ≤ s.pc.toNat then .ok Config.invalidOpcode
  else if s.pc.toNat = 4095 then .error .fetchStraddle
  else .ok (bytesWord (s.mem.get s.pc.toNat) (s.mem.get (s.pc.toNat + 1)))

/-! ### Inputs of the commands -/

/-- The random byte `rnd` of this `CXNN`: the next known one, else a free value (R134). -/
def State.nextRnd (s : State) : Byte :=
  match s.rndQueue with
  | b :: _ => b
  | [] => Config.freeRnd s.rndDraws

/-- The state after a random byte is drawn. -/
def State.takeRnd (s : State) : State :=
  match s.rndQueue with
  | _ :: rest => s.setRnd rest s.rndDraws
  | [] => s.setRnd [] (s.rndDraws + 1)

/-- What the host supplies at this frame's end: the next known input, else free values (R222, R233). -/
def State.nextFrameInput (s : State) : FrameInput :=
  match s.frameQueue with
  | f :: _ => f
  | [] => ⟨Config.freeKeys s.frameDraws, Config.freePresent s.frameDraws⟩

/-- The state after a frame input is taken. -/
def State.takeFrameInput (s : State) : State :=
  match s.frameQueue with
  | _ :: rest => s.setFrameIn rest s.frameDraws
  | [] => s.setFrameIn [] (s.frameDraws + 1)

end Sys2Proof.Machine
end

