-- ==== Sys2Proof/Machine/Flags.lean ====
section
/-! DEFINITION. The one flag, VF (R12): what each flag-writing instruction computes for it (R120, R128 to R132) and the
order in which result and flag are written (R121). -/

namespace Sys2Proof.Machine

/-- A flag as the full byte 0x00 or 0x01 (R12). -/
def flagByte (c : Bool) : Byte := if c then 1 else 0

/-- Carry out of an 8-bit addition: the true sum passes 255 (R128). -/
def carryOut (a b : Byte) : Bool := 255 < a.toNat + b.toNat

/-- No borrow in `a - b`: `a` is at least `b` (R129, R131). -/
def noBorrow (a b : Byte) : Bool := b.toNat ≤ a.toNat

/-- The bit a right shift by one loses (R130). -/
def lowBit (b : Byte) : Bool := b.getLsbD 0

/-- The bit a left shift by one loses (R132). -/
def highBit (b : Byte) : Bool := b.getLsbD 7

/-- R121: the result to `V[x]`, then the flag to `V[15]`, so that with `x = 15` the flag is what remains. -/
def State.writeResultFlag (s : State) (x : Reg) (result : Byte) (flag : Bool) : State :=
  (s.setReg x result).setReg vf (flagByte flag)

end Sys2Proof.Machine
end

