-- ==== Sys2Proof/Machine/Alu.lean ====
section
/-! DEFINITION. The register ALU (42_alu.md): operands are captured before anything is written (R121). -/

namespace Sys2Proof.Machine

/-- `6XNN` (R122). -/
def execLdImm (x : Reg) (nn : Byte) (s : State) : Outcome := .next (s.setReg x nn)

/-- `7XNN` (R123): wrapping, and VF is not written. -/
def execAddImm (x : Reg) (nn : Byte) (s : State) : Outcome := .next (s.setReg x (s.reg x + nn))

/-- `8XY0` (R124). -/
def execLdReg (x y : Reg) (s : State) : Outcome := .next (s.setReg x (s.reg y))

/-- `8XY1` (R125): VF is cleared. -/
def execOrReg (x y : Reg) (s : State) : Outcome := .next (s.writeResultFlag x (s.reg x ||| s.reg y) false)

/-- `8XY2` (R126): VF is cleared. -/
def execAndReg (x y : Reg) (s : State) : Outcome := .next (s.writeResultFlag x (s.reg x &&& s.reg y) false)

/-- `8XY3` (R127): VF is cleared. -/
def execXorReg (x y : Reg) (s : State) : Outcome := .next (s.writeResultFlag x (s.reg x ^^^ s.reg y) false)

/-- `8XY4` (R128). -/
def execAddReg (x y : Reg) (s : State) : Outcome :=
  .next (s.writeResultFlag x (s.reg x + s.reg y) (carryOut (s.reg x) (s.reg y)))

/-- `8XY5` (R129). -/
def execSubReg (x y : Reg) (s : State) : Outcome :=
  .next (s.writeResultFlag x (s.reg x - s.reg y) (noBorrow (s.reg x) (s.reg y)))

/-- `8XY6` (R130): the source of the shift is `V[Y]`. -/
def execShrReg (x y : Reg) (s : State) : Outcome :=
  .next (s.writeResultFlag x (s.reg y >>> 1) (lowBit (s.reg y)))

/-- `8XY7` (R131). -/
def execSubnReg (x y : Reg) (s : State) : Outcome :=
  .next (s.writeResultFlag x (s.reg y - s.reg x) (noBorrow (s.reg y) (s.reg x)))

/-- `8XYE` (R132): the source of the shift is `V[Y]`. -/
def execShlReg (x y : Reg) (s : State) : Outcome :=
  .next (s.writeResultFlag x (s.reg y <<< 1) (highBit (s.reg y)))

/-- `CXNN` (R133, R134): a random byte, drawn now, under the mask. -/
def execRnd (x : Reg) (nn : Byte) (s : State) : Outcome := .next (s.takeRnd.setReg x (s.nextRnd &&& nn))

end Sys2Proof.Machine
end

