-- ==== Sys2Proof/Machine/Operands.lean ====
section
/-! DEFINITION. Every value an instruction forms from its operands and the state before it writes: jump targets, font
addresses, decimal digits, sprite rows, key indices (R63 and the instruction rules). -/

namespace Sys2Proof.Machine

/-- `V[0] + NNN`, a 16-bit sum that is not masked to 12 bits (R103). -/
def State.indexedTarget (s : State) (nnn : Addr) : Word := zext16 (s.reg 0) + addrWord nnn

/-- The font address `FX29` loads, under either `FX29_MODE` (R152). -/
def fontAddress (mode : Fx29Mode) (b : Byte) : Word :=
  match mode with
  | .corrected => 0x50 + 5 * (zext16 b &&& 0x0F)
  | .source => (0x50 + zext16 b) &&& 0x0F

/-- The decimal digits of a byte: hundreds, tens, ones (R154). -/
def bcdDigits (b : Byte) : List Byte :=
  [BitVec.ofNat 8 (b.toNat / 100), BitVec.ofNat 8 (b.toNat / 10 % 10), BitVec.ofNat 8 (b.toNat % 10)]

/-- The column of a sprite's left edge, `V[X] mod 64` (R171). -/
def spriteCol (b : Byte) : Nat := b.toNat % 64

/-- The row of a sprite's top edge, `V[Y] mod DRAW_Y_MODULUS` (R172). -/
def spriteRow (modulus : DrawYModulus) (b : Byte) : Nat := b.toNat % modulus.toNat

/-- `place(s, x0)`: bit 7 of the sprite byte at column `x0`, what passes column 63 dropped (R173). -/
def place (b : Byte) (x0 : Nat) : Row := (b.setWidth 64 <<< 56) >>> x0

/-- Exclusive-or a mask into row `y`; a row below the screen is clipped (R174). -/
def xorRow (g : Vector Row 32) (y : Nat) (m : Row) : Vector Row 32 :=
  if h : y < 32 then g.set y (g[y] ^^^ m) else g

/-- Whether a mask meets a lit pixel of row `y`; a clipped row cannot (R174, R175). -/
def rowHit (g : Vector Row 32) (y : Nat) (m : Row) : Bool :=
  if h : y < 32 then (g[y] &&& m) != 0 else false

/-- The framebuffer after the sprite's rows are drawn from row `y` downward (R171). -/
def drawRows (x0 : Nat) : Vector Row 32 → Nat → List Byte → Vector Row 32
  | g, _, [] => g
  | g, y, b :: bs => drawRows x0 (xorRow g y (place b x0)) (y + 1) bs

/-- Whether any drawn sprite pixel was lit before its row was drawn (R175). -/
def drawHit (x0 : Nat) : Vector Row 32 → Nat → List Byte → Bool
  | _, _, [] => false
  | g, y, b :: bs => rowHit g y (place b x0) || drawHit x0 (xorRow g y (place b x0)) (y + 1) bs

/-- The key a register names: its low nibble (R197). -/
def keyIndex (b : Byte) : Nat := b.toNat % 16

/-- Whether key `k` was down at the last `Tick` (R190, R197). -/
def State.keyDown (s : State) (k : Nat) : Bool := s.keyMask.getLsbD k

/-- The keys down at the tick before the last and up at the last (R192). -/
def State.releasedKeys (s : State) : Word := s.prevKeyMask &&& ~~~s.keyMask

/-- The keys whose bit the last tick changed (R192). -/
def State.changedKeys (s : State) : Word := s.prevKeyMask ^^^ s.keyMask

/-- The index of the lowest set bit of a mask (0 for a mask with none, which no caller asks). -/
def lowestBit (m : Word) : Nat := ((List.range 16).find? (fun k => m.getLsbD k)).getD 0

/-- Whether `FX0A` waits, under either `FX0A_MODE` (R192). -/
def State.keyWaits (s : State) : Bool :=
  match s.params.fx0aMode with
  | .edge => s.releasedKeys == 0
  | .source => s.prevKeyMask.toNat ≤ s.keyMask.toNat

/-- The key a completing `FX0A` reports, under either `FX0A_MODE` (R192). -/
def State.reportedKey (s : State) : Byte :=
  match s.params.fx0aMode with
  | .edge => BitVec.ofNat 8 (lowestBit s.releasedKeys)
  | .source => BitVec.ofNat 8 (lowestBit s.changedKeys)

end Sys2Proof.Machine
end

