-- ==== Sys2Proof/Machine/Display.lean ====
section
/-! DEFINITION. The display (44_display.md). -/

namespace Sys2Proof.Machine

/-- `00E0` (R170): every row to zero; the draw is pending whether or not a pixel changed. -/
def execCls (s : State) : Outcome := .next ((s.setScreen (Vector.replicate 32 0)).setShouldDraw true)

/-- `DXYN` (R171): all N bytes are read, rows and columns off the screen are clipped, VF is written last. -/
def execDrw (x y : Reg) (n : Nibble) (s : State) : Outcome :=
  let sprite := readBytes s.mem (s.dataAddr 0) n.toNat
  let x0 := spriteCol (s.reg x)
  let y0 := spriteRow s.params.drawYModulus (s.reg y)
  withDataRange n.toNat s
    (((s.setScreen (drawRows x0 s.screen y0 sprite)).setReg vf
      (flagByte (drawHit x0 s.screen y0 sprite))).setShouldDraw true)

end Sys2Proof.Machine
end

