-- ==== Sys2Proof/Machine/Flow.lean ====
section
/-! DEFINITION. Control transfer (41_flow.md). `PC` is the advanced value of R82 when a meaning begins. -/

namespace Sys2Proof.Machine

/-- `00EE` (R100): `SP` goes down first, then the whole entry it points at goes to `PC`. -/
def execRet (s : State) : Outcome := .next (s.pop.setPc (s.stackAt (s.sp - 1)))

/-- `1NNN` (R101). -/
def execJp (nnn : Addr) (s : State) : Outcome := .next (s.setPc (addrWord nnn))

/-- `2NNN` (R102): the advanced `PC` is pushed. -/
def execCall (nnn : Addr) (s : State) : Outcome := .next ((s.push s.pc).setPc (addrWord nnn))

/-- `BNNN` (R103): the offset register is always `V[0]`. -/
def execJpV0 (nnn : Addr) (s : State) : Outcome := .next (s.setPc (s.indexedTarget nnn))

/-- `3XNN` (R104). -/
def execSeImm (x : Reg) (nn : Byte) (s : State) : Outcome := .next (s.skipIf (s.reg x == nn))

/-- `4XNN` (R105). -/
def execSneImm (x : Reg) (nn : Byte) (s : State) : Outcome := .next (s.skipIf (s.reg x != nn))

/-- `5XY0` (R106). -/
def execSeReg (x y : Reg) (s : State) : Outcome := .next (s.skipIf (s.reg x == s.reg y))

/-- `9XY0` (R107). -/
def execSneReg (x y : Reg) (s : State) : Outcome := .next (s.skipIf (s.reg x != s.reg y))

end Sys2Proof.Machine
end

