-- ==== Sys2Proof/Machine/IndexMemory.lean ====
section
/-! DEFINITION. The index register and memory (43_index_memory.md): the range check comes before any byte moves (R157). -/

namespace Sys2Proof.Machine

/-- `ANNN` (R150). -/
def execLdI (nnn : Addr) (s : State) : Outcome := .next (s.setI (addrWord nnn))

/-- `FX1E` (R151): a 16-bit sum, no mask and no flag. -/
def execAddI (x : Reg) (s : State) : Outcome := .next (s.setI (s.i + zext16 (s.reg x)))

/-- `FX29` (R152). -/
def execLdFont (x : Reg) (s : State) : Outcome := .next (s.setI (fontAddress s.params.fx29Mode (s.reg x)))

/-- `FX33` (R154): three digits at `I`, `I + 1`, `I + 2`; `I` stays. -/
def execLdBcd (x : Reg) (s : State) : Outcome :=
  withDataRange 3 s (s.setMem (writeBytes s.mem (s.dataAddr 0) (bcdDigits (s.reg x))))

/-- `FX55` (R155): `V[0]` to `V[X]` to memory at `I`, then `I` goes up by X + 1. -/
def execLdMemRegs (x : Reg) (s : State) : Outcome :=
  withDataRange (x.val + 1) s
    ((s.setMem (writeBytes s.mem (s.dataAddr 0) (firstRegs s.v x))).setI (s.i + BitVec.ofNat 16 (x.val + 1)))

/-- `FX65` (R156): memory at `I` to `V[0]` to `V[X]`, then `I` goes up by X + 1. -/
def execLdRegsMem (x : Reg) (s : State) : Outcome :=
  withDataRange (x.val + 1) s
    ((s.setV (loadRegs s.v 0 (readBytes s.mem (s.dataAddr 0) (x.val + 1)))).setI
      (s.i + BitVec.ofNat 16 (x.val + 1)))

end Sys2Proof.Machine
end

