-- ==== Sys2Proof/Machine/KeysTimers.lean ====
section
/-! DEFINITION. Keys and timers (45_keys_timers.md), the instruction side. -/

namespace Sys2Proof.Machine

/-- `EX9E` (R190). -/
def execSkp (x : Reg) (s : State) : Outcome := .next (s.skipIf (s.keyDown (keyIndex (s.reg x))))

/-- `EXA1` (R191). -/
def execSknp (x : Reg) (s : State) : Outcome := .next (s.skipIf (!s.keyDown (keyIndex (s.reg x))))

/-- `FX07` (R194). -/
def execLdVxDt (x : Reg) (s : State) : Outcome := .next (s.setReg x s.dt)

/-- `FX0A` (R192): rewind and wait, or load the reported key. A waiting step changes nothing else. -/
def execLdVxKey (x : Reg) (s : State) : Outcome :=
  .next (if s.keyWaits then s.rewindPc else s.setReg x s.reportedKey)

/-- `FX15` (R195). -/
def execLdDtVx (x : Reg) (s : State) : Outcome := .next (s.setDt (s.reg x))

/-- `FX18` (R196). -/
def execLdStVx (x : Reg) (s : State) : Outcome := .next (s.setSt (s.reg x))

end Sys2Proof.Machine
end

