-- ==== Sys2Proof/Machine/Frame.lean ====
section
/-! DEFINITION. The per-frame commands `Tick` (R220) and `PresentAck` (R233), the schedule that issues them (R90), and
`Reset` (R250). -/

namespace Sys2Proof.Machine

/-- A timer's decrement toward 0, never below (R221). -/
def timerDown (b : Byte) : Byte := if b = 0 then 0 else b - 1

/-- `Tick(keys_in)` (R220). -/
def tick (keys : Word) (s : State) : State :=
  ((s.setDt (timerDown s.dt)).setSt (timerDown s.st)).setKeys s.keyMask keys

/-- `PresentAck` (R233): `shouldDraw <- 0` and nothing else. -/
def presentAck (s : State) : State := s.setShouldDraw false

/-- `PresentAck` if the host presents this frame. -/
def presentIf (present : Bool) (s : State) : State := s.setShouldDraw (s.shouldDraw && !present)

/-- What follows the ninth `Step` of a frame (R90): `Tick`, then the optional `PresentAck`. -/
def endFrame (s : State) : State :=
  presentIf s.nextFrameInput.present (tick s.nextFrameInput.keys s.takeFrameInput)

/-- What the schedule adds after a `Step` (R90): count it, and end the frame after the ninth. -/
def afterStep (s : State) : State :=
  if s.slot = 8 then endFrame (s.setSlot 0) else s.setSlot (s.slot + 1)

/-- `Reset(rom)` (R250, R251) under given parameters: the state of R25, or the refusal of an oversize ROM. -/
def resetWith (p : Params) (rom : List Byte) : Outcome :=
  if romFits rom then
    .next { State.reset with
      params := p
      mem := writeBytes (writeBytes State.reset.mem Config.fontOffset p.font.toList) Config.romBase rom }
  else .refused .romTooLarge

/-- `Reset(rom)` as a command of a running session (R236): a new session with the same parameters. Nothing of the
Machine State survives; the inputs still to come are the host's and are not rewound. -/
def resetCommand (rom : List Byte) (s : State) : Outcome :=
  match resetWith s.params rom with
  | .next t => .next ((t.setRnd s.rndQueue s.rndDraws).setFrameIn s.frameQueue s.frameDraws)
  | r => r

end Sys2Proof.Machine
end

