-- ==== Sys2Proof/Machine/Step.lean ====
section
/-! DEFINITION. The `Step` command (R80): fetch, advance, decode, execute; and the machine's step, which runs `Step`
commands under the schedule of R90. -/

namespace Sys2Proof.Machine

/-- Decode and dispatch (R83, R84), or the decode failure (R86). -/
def runWord (w : Word) (s : State) : Host.Outcome State Fault Refusal :=
  match decodeWord w with
  | .ok i => exec i s
  | .error _ => .next s.enterHalt

/-- The `Step` command (R80). -/
def stepCommand (s : State) : Host.Outcome State Fault Refusal :=
  match fetchWord s with
  | .error f => .fault f
  | .ok w => runWord w s.advancePc

/-- One step of the machine: one `Step` command, and after the ninth of a frame the `Tick` and the optional
`PresentAck` that the schedule of R90 puts there. -/
def step (s : State) : Host.Outcome State Fault Refusal :=
  match stepCommand s with
  | .next t => .next (afterStep t)
  | .fault f => .fault f
  | .refused r => .refused r

/-- `s` with an instruction's word stored where the next fetch reads it: at `PC`, high byte first (R41). A `PC` from
which no word can be fetched (4095 and above) is set to 512 first. -/
def State.withFetchWord (s : State) (nbits w : Nat) : State :=
  let pc : Word := if s.pc.toNat < 4095 then s.pc else 512
  (s.setPc pc).setMem (writeBytes s.mem pc.toNat (wordBytes (BitVec.ofNat 16 (w % 2 ^ nbits))))

end Sys2Proof.Machine
end

