-- ==== Sys2Proof/Machine/Command.lean ====
section
/-! DEFINITION. The four commands of the host (R92), each with its own input, free of any schedule. -/

namespace Sys2Proof.Machine

/-- A command and its argument (R92, R230). -/
inductive Command where
  | reset (rom : List Byte)
  | step (rnd : Byte)
  | tick (keys : Word)
  | presentAck
  deriving DecidableEq, Repr

/-- `Step(rnd)` (R80): the input is there for this command only, and is ignored unless a `CXNN` takes it. -/
def stepWith (rnd : Byte) (s : State) : Outcome :=
  match stepCommand (s.setRnd (rnd :: s.rndQueue) s.rndDraws) with
  | .next t => .next (t.setRnd s.rndQueue s.rndDraws)
  | r => r

/-- One command (R92). Each runs to its end before the next begins. -/
def command (c : Command) (s : State) : Outcome :=
  match c with
  | .reset rom => resetCommand rom s
  | .step rnd => stepWith rnd s
  | .tick keys => .next (tick keys s)
  | .presentAck => .next (presentAck s)

/-- A session as the host sees it: a machine state, or none after a faulted `Step` (R216) or a refused `Reset`
(R251). `last` is the state before the command that stopped; `Reset` takes from it only what is the machine's and the
host's, the parameters and the inputs to come. -/
inductive Session where
  | live (s : State)
  | faulted (f : Fault) (last : State)
  | refused (r : Refusal) (last : State)
  deriving DecidableEq, Repr

/-- The session after a command issued in the state `last`. -/
def Session.ofOutcome (last : State) : Outcome → Session
  | .next t => .live t
  | .fault f => .faulted f last
  | .refused r => .refused r last

/-- The session's state, or the last one it had. -/
def Session.last : Session → State
  | .live s => s
  | .faulted _ last => last
  | .refused _ last => last

/-- The session's state, or why it has none. -/
def Session.outcome : Session → Outcome
  | .live s => .next s
  | .faulted f _ => .fault f
  | .refused r _ => .refused r

/-- A command that needs a machine state: a stopped session stays as it is (R216). -/
def Session.whileLive (f : State → Outcome) : Session → Session
  | .live s => .ofOutcome s (f s)
  | .faulted r last => .faulted r last
  | .refused r last => .refused r last

/-- One command in a session. `Reset` may come at any time and starts a new session, also after a fault or a refused
`Reset`; no other command clears a stop (R216, R236). -/
def Session.issue (c : Command) (x : Session) : Session :=
  match c with
  | .reset rom => .ofOutcome x.last (resetCommand rom x.last)
  | .step rnd => x.whileLive (command (.step rnd))
  | .tick keys => x.whileLive (command (.tick keys))
  | .presentAck => x.whileLive (command .presentAck)

/-- A sequence of commands in a session. -/
def Session.issueAll : List Command → Session → Session
  | [], x => x
  | c :: cs, x => Session.issueAll cs (x.issue c)

/-- What a sequence of commands gives from a state: the state at its end, or the stop that no `Reset` cleared. -/
def commands (cs : List Command) (s : State) : Outcome := (Session.issueAll cs (.live s)).outcome

/-- `n` `Step` commands with no schedule around them. -/
def stepCommands : Nat → State → Outcome
  | 0, s => .next s
  | n + 1, s =>
    match stepCommand s with
    | .next t => stepCommands n t
    | r => r

/-- The `Frame` composite (R91): nine `Step`s, then `Tick`. -/
def frameCommands (rnds : Vector Byte 9) (keys : Word) : List Command :=
  rnds.toList.map Command.step ++ [Command.tick keys]

end Sys2Proof.Machine
end

