-- ==== Sys2Proof/Machine/Signals.lean ====
section
/-! DEFINITION. The boundary signals (R230): functions of the state, not state. `screen` and `shouldDraw` are fields. -/

namespace Sys2Proof.Machine

/-- `beep = (ST > 0)` (R234). -/
def State.beep (s : State) : Bool := 0 < s.st.toNat

/-- `halted = (PC >= 4096)` as the host sees it (R235). -/
def State.haltedSignal (s : State) : Bool := s.halted

/-- Pixel (x, y): bit `63 - x` of row `y` (R20). -/
def State.pixel (s : State) (x : Fin 64) (y : Fin 32) : Bool := s.screen[y.val].getLsbD (63 - x.val)

/-- The status of a `Step` that gives a next state, from the state before it (R88). -/
def statusOf (s : State) : StepStatus :=
  match fetchWord s with
  | .error _ => .decodeFailure
  | .ok w =>
    match decodeWord w with
    | .error _ => .decodeFailure
    | .ok (.ldVxKey _) => if s.keyWaits then .waiting else .advanced
    | .ok _ => .advanced

/-- The status `Step` returns (R88): none where it faults and so returns no state. -/
def stepStatus (s : State) : Option StepStatus :=
  match stepCommand s with
  | .next _ => some (statusOf s)
  | _ => none

end Sys2Proof.Machine
end

