-- ==== Sys2Proof/Safety.lean ====
section
/-! DEFINITION. What counts as a safe run, and the invariant of R27. -/

namespace Sys2Proof.Machine

/-- The bounds of R27 and the canonical form of memory: what every state reached from reset satisfies. -/
structure StateInv (s : State) : Prop where
  memCanonical : s.mem.wf = true
  pcBound : s.pc.toNat ≤ 4350
  stackBound : ∀ k : BitVec 4, (s.stackAt k).toNat ≤ 4096

/-- A run of `n` steps that ends in a state: no `Step` of it faulted (R216). -/
def Completes (n : Nat) (s t : State) : Prop := Sys2Proof.core.run n s = .next t

/-- A state from which no run faults (R216). -/
def FaultFree (s : State) : Prop := ∀ n f, Sys2Proof.core.run n s ≠ .fault f

/-- A session is over when the host finds `PC >= 4096` at a frame boundary (R91). -/
def State.sessionOver (s : State) : Bool := s.slot == 0 && s.halted

end Sys2Proof.Machine
end

