-- ==== Sys2Proof/Certificates/Slice0/Obligations.lean ====
section
/-! DEFINITION. The statements about the machine, and the vocabulary they are written in. -/

open Sys2Proof Sys2Proof.Machine

namespace Sys2Proof.Stmt

/-- `len(rom) <= 3584`, R250's condition. -/
def Fits (rom : List Byte) : Prop := rom.length ≤ 3584

/-- Every element of R10 at the value R25 lists for a parameter `FONT` and a ROM, the parameters being `p`. -/
def HasResetValues (p : Params) (rom : List Byte) (t : State) : Prop :=
  t.params = p ∧
  (∀ a, a < 0x50 → t.mem.get a = 0) ∧
  (∀ k (h : k < 80), t.mem.get (0x50 + k) = p.font[k]) ∧
  (∀ a, 0xA0 ≤ a → a < 512 → t.mem.get a = 0) ∧
  (∀ k (h : k < rom.length), t.mem.get (512 + k) = rom[k]) ∧
  (∀ a, 512 + rom.length ≤ a → a ≤ 4095 → t.mem.get a = 0) ∧
  (∀ x, t.reg x = 0) ∧ t.i = 0 ∧ t.pc = 512 ∧ (∀ k, t.stackAt k = 0) ∧ t.sp = 0 ∧ t.dt = 0 ∧ t.st = 0 ∧
  t.prevKeyMask = 0 ∧ t.keyMask = 0 ∧ (∀ px py, t.pixel px py = false) ∧ t.shouldDraw = false

/-- How many bytes of memory an instruction's data access covers (R46). -/
def dataBytes : Instr → Nat
  | .drw _ _ n => n.toNat
  | .ldBcd _ => 3
  | .ldMemRegs x => x.val + 1
  | .ldRegsMem x => x.val + 1
  | _ => 0

/-- The elements of the state that R26 lists accesses to, one V register at a time, and the model's own. -/
inductive Element where
  | mem | reg (x : Reg) | i | pc | stack | sp | dt | st | prevKeyMask | keyMask | screen | shouldDraw
  | params | slot | rndInput | frameInput
  deriving DecidableEq, Repr

/-- Two states agree in an element. -/
def SameIn (s t : State) : Element → Prop
  | .mem => t.mem = s.mem
  | .reg x => t.reg x = s.reg x
  | .i => t.i = s.i
  | .pc => t.pc = s.pc
  | .stack => t.stack = s.stack
  | .sp => t.sp = s.sp
  | .dt => t.dt = s.dt
  | .st => t.st = s.st
  | .prevKeyMask => t.prevKeyMask = s.prevKeyMask
  | .keyMask => t.keyMask = s.keyMask
  | .screen => t.screen = s.screen
  | .shouldDraw => t.shouldDraw = s.shouldDraw
  | .params => t.params = s.params
  | .slot => t.slot = s.slot
  | .rndInput => t.rndQueue = s.rndQueue ∧ t.rndDraws = s.rndDraws
  | .frameInput => t.frameQueue = s.frameQueue ∧ t.frameDraws = s.frameDraws

/-- The write column of R26: what a handler may write beyond the `PC` advance. -/
def mayWrite : Instr → Element → Bool
  | .cls, e => e == .screen || e == .shouldDraw
  | .ret, e => e == .sp || e == .pc
  | .jp _, e => e == .pc
  | .call _, e => e == .stack || e == .sp || e == .pc
  | .seImm _ _, e => e == .pc
  | .sneImm _ _, e => e == .pc
  | .seReg _ _, e => e == .pc
  | .ldImm x _, e => e == .reg x
  | .addImm x _, e => e == .reg x
  | .ldReg x _, e => e == .reg x
  | .orReg x _, e => e == .reg x || e == .reg 15
  | .andReg x _, e => e == .reg x || e == .reg 15
  | .xorReg x _, e => e == .reg x || e == .reg 15
  | .addReg x _, e => e == .reg x || e == .reg 15
  | .subReg x _, e => e == .reg x || e == .reg 15
  | .shrReg x _, e => e == .reg x || e == .reg 15
  | .subnReg x _, e => e == .reg x || e == .reg 15
  | .shlReg x _, e => e == .reg x || e == .reg 15
  | .sneReg _ _, e => e == .pc
  | .ldI _, e => e == .i
  | .jpV0 _, e => e == .pc
  | .rnd x _, e => e == .reg x || e == .rndInput
  | .drw _ _ _, e => e == .screen || e == .reg 15 || e == .shouldDraw
  | .skp _, e => e == .pc
  | .sknp _, e => e == .pc
  | .ldVxDt x, e => e == .reg x
  | .ldVxKey x, e => e == .reg x || e == .pc
  | .ldDtVx _, e => e == .dt
  | .ldStVx _, e => e == .st
  | .addI _, e => e == .i
  | .ldFont _, e => e == .i
  | .ldBcd _, e => e == .mem
  | .ldMemRegs _, e => e == .mem || e == .i
  | .ldRegsMem x, e => e == .i || (List.finRange 16).any (fun r => decide (r ≤ x) && (e == .reg r))

/-- A two-register instruction that leaves `result` in `V[x]` and `flag` in VF, the flag being what remains when
`x` is 15, and changes nothing else. -/
def WritesResultAndFlag (i : Instr) (x : Reg) (s : State) (result flag : Nat) : Prop :=
  ∃ t, exec i s = .next t ∧ t = { s with v := t.v } ∧ (t.reg 15).toNat = flag ∧
    (x ≠ 15 → (t.reg x).toNat = result) ∧ ∀ r, r ≠ x → r ≠ 15 → t.reg r = s.reg r

/-- An instruction that leaves `b` in `V[x]` and changes nothing else. -/
def WritesRegister (i : Instr) (x : Reg) (s : State) (b : Byte) : Prop :=
  ∃ t, exec i s = .next t ∧ t = { s with v := t.v } ∧ t.reg x = b ∧ ∀ r, r ≠ x → t.reg r = s.reg r

/-- Whether the sprite of `DXYN` has a lit bit at pixel (px, py), clipped pixels having none (R171 to R174). -/
def spriteBit (s : State) (x y : Reg) (n : Nibble) (px : Fin 64) (py : Fin 32) : Bool :=
  let x0 := (s.reg x).toNat % 64
  let y0 := (s.reg y).toNat % s.params.drawYModulus.toNat
  decide (y0 ≤ py.val ∧ py.val < y0 + n.toNat ∧ x0 ≤ px.val ∧ px.val < x0 + 8) &&
    (s.mem.get (s.i.toNat + (py.val - y0))).getLsbD (7 - (px.val - x0))

/-- Run instructions one after another, with no fetch between them. -/
def execAll : List Instr → State → Outcome
  | [], s => .next s
  | i :: is, s =>
    match exec i s with
    | .next t => execAll is t
    | r => r

/-- The outcome with its state changed, so that outcomes can be compared but for one element. -/
def mapNext (f : State → State) : Outcome → Outcome
  | .next t => .next (f t)
  | r => r

/-- `n` ticks with the samples of a list. -/
def ticks : List Word → State → State
  | [], s => s
  | k :: ks, s => ticks ks (tick k s)

end Sys2Proof.Stmt

open Sys2Proof.Stmt

/-! ### Reset -/

/-- R25 through `Reset` under any parameters, and through the command `Reset` of a running session and at the end of
any sequence of commands, a faulted `Step` or a refused `Reset` among them (R216, R236): nothing of the old state
survives. That the parameters are a field which `Reset` keeps is the model's choice (log entries 2 and 8). -/
def Obligations.ResetLeavesTheListedValues : Prop :=
  ∀ (rom : List Byte), Fits rom →
    (∀ p : Params, ∃ t, resetWith p rom = .next t ∧ HasResetValues p rom t) ∧
    (∀ s : State, ∃ t, command (.reset rom) s = .next t ∧ HasResetValues s.params rom t) ∧
    ∀ (cs : List Command) (s : State), ∃ t, commands (cs ++ [.reset rom]) s = .next t ∧
      HasResetValues s.params rom t

/-- R251 under decision D25: exactly the ROMs over 3584 bytes are refused. -/
def Obligations.ResetRefusesExactlyTheOversizeRoms : Prop :=
  ∀ (p : Params) (rom : List Byte), resetWith p rom = .refused .romTooLarge ↔ 3584 < rom.length

/-- `State.reset` is `Reset` of an empty ROM under the default parameters (the model's choice, log entries 1 and 2). -/
def Obligations.ResetStateIsTheEmptyRomReset : Prop := resetWith defaultParams [] = .next State.reset

/-- R252: the first instruction of a session is the ROM's first two bytes, high byte first, and a frame starts
there (R90 under decision D2; the count `slot` is the model's own field, log entries 4 and 7). -/
def Obligations.EntryPointIsTheRomStart : Prop :=
  ∀ (p : Params) (hi lo : Byte) (rest : List Byte) (t : State),
    resetWith p (hi :: lo :: rest) = .next t →
      t.slot = 0 ∧ ∃ w, fetchWord t = .ok w ∧ w.toNat = hi.toNat * 256 + lo.toNat

/-! ### Encoding -/

/-- Words written out from the patterns of R66, one per major opcode. -/
def Obligations.DecodesWordsWrittenOutFromTheTable : Prop :=
  decodeWord 0x00E0 = .ok .cls ∧ decodeWord 0x00EE = .ok .ret ∧ decodeWord 0x1234 = .ok (.jp 0x234) ∧
  decodeWord 0x2FFE = .ok (.call 0xFFE) ∧ decodeWord 0x3105 = .ok (.seImm 1 0x05) ∧
  decodeWord 0x4208 = .ok (.sneImm 2 0x08) ∧ decodeWord 0x5120 = .ok (.seReg 1 2) ∧
  decodeWord 0x61FF = .ok (.ldImm 1 0xFF) ∧ decodeWord 0x7F02 = .ok (.addImm 15 0x02) ∧
  decodeWord 0x8F2E = .ok (.shlReg 15 2) ∧ decodeWord 0x9120 = .ok (.sneReg 1 2) ∧
  decodeWord 0xA20C = .ok (.ldI 0x20C) ∧ decodeWord 0xB3FE = .ok (.jpV0 0x3FE) ∧
  decodeWord 0xC30F = .ok (.rnd 3 0x0F) ∧ decodeWord 0xD125 = .ok (.drw 1 2 5) ∧
  decodeWord 0xE1A1 = .ok (.sknp 1) ∧ decodeWord 0xF265 = .ok (.ldRegsMem 2) ∧
  decodeWord 0x0000 = .error (.illegalOpcode 0x0000) ∧ decodeWord 0xFFFF = .error (.illegalOpcode 0xFFFF)

/-- Every instruction, with every operand, is read back from its word. -/
def Obligations.EncodedInstructionDecodesBack : Prop := ∀ i : Instr, decodeWord (encode i) = .ok i

/-- Every legal word is the word of the instruction it decodes to: decoding drops no bit. -/
def Obligations.DecodedWordEncodesBack : Prop := ∀ (w : Word) (i : Instr), decodeWord w = .ok i → encode i = w

/-- R64: the decoder is the match test over the 34 entries, whatever the order of the scan, and total. -/
def Obligations.DecoderIsTheDispatchTableMatch : Prop :=
  opcodeTable.length = 34 ∧
  (∀ w i, decodeWord w = .ok i → rowOf i ∈ opcodeTable ∧ w &&& (rowOf i).mask = (rowOf i).value) ∧
  (∀ w r, r ∈ opcodeTable → w &&& r.mask = r.value → ∃ i, decodeWord w = .ok i ∧ rowOf i = r) ∧
  (∀ w, (∀ r ∈ opcodeTable, w &&& r.mask ≠ r.value) → decodeWord w = .error (.illegalOpcode w))

/-- R67: the legal words by major opcode are the words that decode. -/
def Obligations.LegalWordsAreTheDecodableWords : Prop :=
  ∀ w, legalWord w = true ↔ ∃ i, decodeWord w = .ok i

/-- An instruction stored where the next fetch reads, high byte first (R41), is the one the next `Step` runs. -/
def Obligations.StoredInstructionIsTheOneRun : Prop :=
  ∀ (i : Instr) (s : State), s.mem.wf = true → s.pc.toNat < 4095 →
    decodeTableWord 16 (encode i).toNat = some i ∧
    (s.withFetchWord 16 (encode i).toNat).mem.get s.pc.toNat = (encode i).extractLsb' 8 8 ∧
    (s.withFetchWord 16 (encode i).toNat).mem.get (s.pc.toNat + 1) = (encode i).extractLsb' 0 8 ∧
    stepCommand (s.withFetchWord 16 (encode i).toNat) =
      exec i { s.withFetchWord 16 (encode i).toNat with pc := s.pc + 2 }

/-! ### The engine cycle -/

/-- R84: the matched handler runs once on the state with `PC` advanced. That the machine's step adds the schedule's
`afterStep` to it is the model's choice (log entry 4, a DESIGN CHOICE on decision D2). -/
def Obligations.StepRunsTheDecodedInstruction : Prop :=
  ∀ (s : State) (i : Instr), s.pc.toNat < 4095 →
    decodeWord (bytesWord (s.mem.get s.pc.toNat) (s.mem.get (s.pc.toNat + 1))) = .ok i →
      stepCommand s = exec i { s with pc := s.pc + 2 } ∧
      step s = mapNext afterStep (exec i { s with pc := s.pc + 2 })

/-- R81, its `PC = 4095` case under decision D10: the three cases of fetch. The sentinel is an illegal word. -/
def Obligations.FetchIsBigEndianOrSentinel : Prop :=
  (∀ s : State, s.pc.toNat < 4095 → ∃ w, fetchWord s = .ok w ∧
    w.toNat = (s.mem.get s.pc.toNat).toNat * 256 + (s.mem.get (s.pc.toNat + 1)).toNat) ∧
  (∀ s : State, 4096 ≤ s.pc.toNat → fetchWord s = .ok 0xFFFF) ∧
  (∀ s : State, s.pc.toNat = 4095 → fetchWord s = .error .fetchStraddle ∧ step s = .fault .fetchStraddle) ∧
  ∀ i, decodeWord 0xFFFF ≠ .ok i

/-- R86 under decision D23: an illegal word sets `PC` to 4096 and changes nothing else. -/
def Obligations.IllegalWordHalts : Prop :=
  ∀ s : State, s.pc.toNat < 4095 →
    legalWord (bytesWord (s.mem.get s.pc.toNat) (s.mem.get (s.pc.toNat + 1))) = false →
      stepCommand s = .next { s with pc := 4096 }

/-- R213: `halted` is `PC >= 4096` however it came about, and the next `Step` sets `PC` to exactly 4096. That it changes
nothing else is R87 and R212 under decisions D21 and D23 (log entry 17). -/
def Obligations.HaltedPredicateAndNextStep : Prop :=
  ∀ s : State, (s.halted = true ↔ 4096 ≤ s.pc.toNat) ∧
    (s.halted = true → stepCommand s = .next { s with pc := 4096 })

/-- R87, R215 (decision D21): a halted machine takes any number of steps, stays halted, and never faults. -/
def Obligations.HaltedRunsStayHalted : Prop :=
  ∀ s : State, s.halted = true →
    FaultFree s ∧
    ∀ n, ∃ t, Completes (n + 1) s t ∧ t.pc = 4096 ∧ t.mem = s.mem ∧ t.v = s.v ∧ t.i = s.i ∧
      t.stack = s.stack ∧ t.sp = s.sp ∧ t.screen = s.screen

/-- R101: a jump to its own address repeats for ever and changes no element but those of `Tick` and `PresentAck`. -/
def Obligations.SelfJumpNeverHaltsNorFaults : Prop :=
  ∀ (s : State) (nnn : Addr), s.pc.toNat = nnn.toNat → nnn.toNat < 4095 →
    bytesWord (s.mem.get s.pc.toNat) (s.mem.get (s.pc.toNat + 1)) = 0x1#4 ++ nnn →
      ∀ n, ∃ t, Completes n s t ∧ t.pc = s.pc ∧ t.halted = false ∧ t.mem = s.mem ∧ t.v = s.v ∧ t.i = s.i ∧
        t.stack = s.stack ∧ t.sp = s.sp ∧ t.screen = s.screen

/-- R46, R157 (decision D9): the handler faults exactly when a byte of its data access lies at 4096 or above, and no
handler refuses. -/
def Obligations.HandlerFaultsExactlyOutsideMemory : Prop :=
  ∀ (i : Instr) (s : State),
    (∀ f, exec i s = .fault f ↔
      f = .dataAddressOutOfRange ∧ dataBytes i ≠ 0 ∧ 4096 < s.i.toNat + dataBytes i) ∧
    ∀ r, exec i s ≠ .refused r

/-- R214, R211: the only two faults of a step, each exactly under its condition; a step never refuses. Both faults are
choices where the source is silent: decisions D9 and D10 (log entries 10 and 11, DESIGN CHOICE). -/
def Obligations.StepFaultsExactlyInTheTwoListedCases : Prop :=
  ∀ (s : State),
    (∀ f, step s = .fault f ↔
      (f = .fetchStraddle ∧ s.pc.toNat = 4095) ∨
      (f = .dataAddressOutOfRange ∧ s.pc.toNat < 4095 ∧
        ∃ i, decodeWord (bytesWord (s.mem.get s.pc.toNat) (s.mem.get (s.pc.toNat + 1))) = .ok i ∧
          dataBytes i ≠ 0 ∧ 4096 < s.i.toNat + dataBytes i)) ∧
    ∀ r, step s ≠ .refused r

/-- R88 (decision D17): `Waiting` exactly when an `FX0A` ended where it began, and that step changed nothing (R192);
`DecodeFailure` exactly when the fetched word is no instruction, and that step changed only `PC`, to 4096 (R86 under
decision D23, log entry 17); `Advanced` otherwise. -/
def Obligations.StatusSaysWhatTheStepDid : Prop :=
  ∀ s t : State, stepCommand s = .next t →
    ∃ w, fetchWord s = .ok w ∧
      (stepStatus s = some .waiting ↔ (∃ x, decodeWord w = .ok (.ldVxKey x)) ∧ t.pc = s.pc) ∧
      (stepStatus s = some .waiting → t = s) ∧
      (stepStatus s = some .decodeFailure ↔ ∀ i, decodeWord w ≠ .ok i) ∧
      (stepStatus s = some .decodeFailure → t = { s with pc := 4096 }) ∧
      (stepStatus s ≠ some .waiting → stepStatus s ≠ some .decodeFailure → stepStatus s = some .advanced)

/-- R89: `Step` depends on `rnd` only when the instruction is a `CXNN`. -/
def Obligations.RandomInputMattersOnlyToRnd : Prop :=
  ∀ (s : State) (b c : Byte),
    (∀ w x nn, fetchWord s = .ok w → decodeWord w ≠ .ok (.rnd x nn)) → stepWith b s = stepWith c s

/-! ### The schedule -/

/-- R90 (decision D2): steps one to eight of a frame are followed by nothing, the ninth by `Tick` with the frame's
key sample and, if the host presents, by `PresentAck`. With a known frame input it is that input's, with none it is
some input's, and one free draw is counted (log entries 4 and 5, the model's choice). -/
def Obligations.TickFollowsTheNinthStep : Prop :=
  ∀ s t : State, stepCommand s = .next t →
    (s.slot.val < 8 → step s = .next { t with slot := s.slot + 1 }) ∧
    (s.slot.val = 8 → ∃ u, step s = .next u ∧ u.slot = 0 ∧
      u.dt.toNat = t.dt.toNat - 1 ∧ u.st.toNat = t.st.toNat - 1 ∧ u.prevKeyMask = t.keyMask ∧
      (∀ f fs, s.frameQueue = f :: fs → u.keyMask = f.keys ∧ u.frameQueue = fs ∧ u.frameDraws = t.frameDraws ∧
        u.shouldDraw = (t.shouldDraw && !f.present)) ∧
      (s.frameQueue = [] → u.frameQueue = [] ∧ u.frameDraws = t.frameDraws + 1 ∧
        (u.shouldDraw = true → t.shouldDraw = true) ∧
        ∃ f : FrameInput, u.keyMask = f.keys ∧ u.shouldDraw = (t.shouldDraw && !f.present)) ∧
      u = { t with
        dt := u.dt, st := u.st, prevKeyMask := u.prevKeyMask, keyMask := u.keyMask,
        shouldDraw := u.shouldDraw, slot := 0, frameQueue := u.frameQueue, frameDraws := u.frameDraws })

/-- R91 (decision D2): from a frame boundary, nine steps of the machine are nine `Step` commands and then the
frame's end. -/
def Obligations.NineStepsMakeOneFrame : Prop :=
  ∀ s : State, s.slot = 0 → Sys2Proof.core.run 9 s = mapNext endFrame (stepCommands 9 s)

/-- R220: `Tick` decrements both timers toward 0, shifts the key masks, and changes nothing else. -/
def Obligations.TickDecrementsTimersAndShiftsKeys : Prop :=
  ∀ (s : State) (keys : Word), ∃ t, command (.tick keys) s = .next t ∧
    t.dt.toNat = s.dt.toNat - 1 ∧ t.st.toNat = s.st.toNat - 1 ∧ t.prevKeyMask = s.keyMask ∧ t.keyMask = keys ∧
    t = { s with dt := t.dt, st := t.st, prevKeyMask := t.prevKeyMask, keyMask := t.keyMask }

/-- R221: a timer that holds `n` reaches 0 at the `n`-th `Tick`, not before, and stays there; `beep` follows `ST`. -/
def Obligations.TimersCountTicksDownToZero : Prop :=
  ∀ (s : State) (ks : List Word),
    (ticks ks s).dt.toNat = s.dt.toNat - ks.length ∧ (ticks ks s).st.toNat = s.st.toNat - ks.length ∧
    ((ticks ks s).beep = true ↔ ks.length < s.st.toNat)

/-- R233 (decision D2): `PresentAck` clears `shouldDraw` and does nothing else. -/
def Obligations.PresentAckClearsShouldDrawOnly : Prop :=
  ∀ s : State, command .presentAck s = .next { s with shouldDraw := false }

/-! ### Control transfer -/

/-- R100: return, `SP` wrapping modulo 16 by decision D13. -/
def Obligations.ReturnPopsTheStackIntoPc : Prop :=
  decodeWord 0x00EE = .ok .ret ∧
  ∀ s : State, exec .ret s = .next { s with sp := s.sp - 1, pc := s.stackAt (s.sp - 1) }

/-- R102: call, `SP` wrapping modulo 16 by decision D13. -/
def Obligations.CallPushesTheAdvancedPc : Prop :=
  ∀ nnn : Addr, decodeWord (0x2#4 ++ nnn) = .ok (.call nnn) ∧
    ∀ s : State, ∃ t, exec (.call nnn) s = .next t ∧ t.pc.toNat = nnn.toNat ∧ t.sp = s.sp + 1 ∧
      t.stackAt s.sp = s.pc ∧ (∀ k, k ≠ s.sp → t.stackAt k = s.stackAt k) ∧
      t = { s with pc := t.pc, sp := t.sp, stack := t.stack }

/-- R101, R103: the direct jump and the jump with offset `V[0]`, whose sum is not masked to 12 bits. -/
def Obligations.JumpsLoadPc : Prop :=
  ∀ nnn : Addr, decodeWord (0x1#4 ++ nnn) = .ok (.jp nnn) ∧ decodeWord (0xB#4 ++ nnn) = .ok (.jpV0 nnn) ∧
    ∀ s : State,
      (∃ t, exec (.jp nnn) s = .next t ∧ t.pc.toNat = nnn.toNat ∧ t = { s with pc := t.pc }) ∧
      (∃ t, exec (.jpV0 nnn) s = .next t ∧ t.pc.toNat = (s.reg 0).toNat + nnn.toNat ∧ t = { s with pc := t.pc })

/-- R104 to R107: the four skips, and the illegal neighbours of the two-register ones. -/
def Obligations.SkipsAddTwoWhenTheComparisonHolds : Prop :=
  (∀ (x : Reg) (nn : Byte),
    decodeWord (0x3#4 ++ regBits x ++ nn) = .ok (.seImm x nn) ∧
    decodeWord (0x4#4 ++ regBits x ++ nn) = .ok (.sneImm x nn) ∧
    ∀ s : State,
      exec (.seImm x nn) s = .next { s with pc := if s.reg x = nn then s.pc + 2 else s.pc } ∧
      exec (.sneImm x nn) s = .next { s with pc := if s.reg x ≠ nn then s.pc + 2 else s.pc }) ∧
  ∀ x y : Reg,
    decodeWord (0x5#4 ++ regBits x ++ regBits y ++ 0x0#4) = .ok (.seReg x y) ∧
    decodeWord (0x9#4 ++ regBits x ++ regBits y ++ 0x0#4) = .ok (.sneReg x y) ∧
    (∀ (n : Nibble) (i : Instr), n ≠ 0 →
      decodeWord (0x5#4 ++ regBits x ++ regBits y ++ n) ≠ .ok i ∧
      decodeWord (0x9#4 ++ regBits x ++ regBits y ++ n) ≠ .ok i) ∧
    ∀ s : State,
      exec (.seReg x y) s = .next { s with pc := if s.reg x = s.reg y then s.pc + 2 else s.pc } ∧
      exec (.sneReg x y) s = .next { s with pc := if s.reg x ≠ s.reg y then s.pc + 2 else s.pc }

/-- R110 (decision D13): up to sixteen nested calls unwind to the first caller. -/
def Obligations.SixteenNestedCallsUnwind : Prop :=
  ∀ (targets : List Addr) (s : State), targets.length ≤ 16 →
    ∃ t u, execAll (targets.map Instr.call) s = .next t ∧
      execAll (List.replicate targets.length .ret) t = .next u ∧ u.sp = s.sp ∧
      (targets ≠ [] → u.pc = s.pc) ∧ u = { s with pc := u.pc, stack := u.stack }

/-! ### Register ALU -/

/-- R122, R123, R124: load byte, add byte with no flag, copy register; `x = 15` is an ordinary destination. -/
def Obligations.LoadsAndAddByteWriteOneRegister : Prop :=
  (∀ (x : Reg) (nn : Byte),
    decodeWord (0x6#4 ++ regBits x ++ nn) = .ok (.ldImm x nn) ∧
    decodeWord (0x7#4 ++ regBits x ++ nn) = .ok (.addImm x nn) ∧
    ∀ s : State, WritesRegister (.ldImm x nn) x s nn ∧
      WritesRegister (.addImm x nn) x s (BitVec.ofNat 8 (((s.reg x).toNat + nn.toNat) % 256))) ∧
  ∀ x y : Reg, decodeWord (0x8#4 ++ regBits x ++ regBits y ++ 0x0#4) = .ok (.ldReg x y) ∧
    ∀ s : State, WritesRegister (.ldReg x y) x s (s.reg y)

/-- R125, R126, R127, for `x = 15` or `y = 15` under decision D4: the logic instructions clear VF. -/
def Obligations.LogicInstructionsClearTheFlag : Prop :=
  ∀ x y : Reg,
    decodeWord (0x8#4 ++ regBits x ++ regBits y ++ 0x1#4) = .ok (.orReg x y) ∧
    decodeWord (0x8#4 ++ regBits x ++ regBits y ++ 0x2#4) = .ok (.andReg x y) ∧
    decodeWord (0x8#4 ++ regBits x ++ regBits y ++ 0x3#4) = .ok (.xorReg x y) ∧
    ∀ s : State,
      WritesResultAndFlag (.orReg x y) x s ((s.reg x).toNat ||| (s.reg y).toNat) 0 ∧
      WritesResultAndFlag (.andReg x y) x s ((s.reg x).toNat &&& (s.reg y).toNat) 0 ∧
      WritesResultAndFlag (.xorReg x y) x s ((s.reg x).toNat ^^^ (s.reg y).toNat) 0

/-- R128, R129, R131, for `x = 15` or `y = 15` under decision D4: wrapping sums and differences, carry and not-borrow. -/
def Obligations.AddAndSubtractSetCarryOrNotBorrow : Prop :=
  ∀ x y : Reg,
    decodeWord (0x8#4 ++ regBits x ++ regBits y ++ 0x4#4) = .ok (.addReg x y) ∧
    decodeWord (0x8#4 ++ regBits x ++ regBits y ++ 0x5#4) = .ok (.subReg x y) ∧
    decodeWord (0x8#4 ++ regBits x ++ regBits y ++ 0x7#4) = .ok (.subnReg x y) ∧
    ∀ s : State,
      let a := (s.reg x).toNat
      let b := (s.reg y).toNat
      WritesResultAndFlag (.addReg x y) x s ((a + b) % 256) (if 255 < a + b then 1 else 0) ∧
      WritesResultAndFlag (.subReg x y) x s (if b ≤ a then a - b else a + 256 - b) (if a < b then 0 else 1) ∧
      WritesResultAndFlag (.subnReg x y) x s (if a ≤ b then b - a else b + 256 - a) (if b < a then 0 else 1)

/-- R130, R132, for `x = 15` or `y = 15` under decision D4: both shifts take `V[Y]` and lose one bit into VF. -/
def Obligations.ShiftsTakeVyAndLoseOneBitIntoVf : Prop :=
  ∀ x y : Reg,
    decodeWord (0x8#4 ++ regBits x ++ regBits y ++ 0x6#4) = .ok (.shrReg x y) ∧
    decodeWord (0x8#4 ++ regBits x ++ regBits y ++ 0xE#4) = .ok (.shlReg x y) ∧
    ∀ s : State,
      let b := (s.reg y).toNat
      WritesResultAndFlag (.shrReg x y) x s (b / 2) (b % 2) ∧
      WritesResultAndFlag (.shlReg x y) x s (b * 2 % 256) (b / 128)

/-- R133, R134 (decision D11): whatever byte the host supplies, `CXNN` writes it under the mask. That a known byte comes
from `rndQueue` and is used up, and that without one a free draw is counted in `rndDraws`, is the model's own supply of
random bytes (log entry 6, a DESIGN CHOICE). -/
def Obligations.RandomByteUnderMask : Prop :=
  ∀ (x : Reg) (nn : Byte), decodeWord (0xC#4 ++ regBits x ++ nn) = .ok (.rnd x nn) ∧
    (∀ (s : State) (b : Byte) (rest : List Byte), s.rndQueue = b :: rest →
      ∃ t, exec (.rnd x nn) s = .next t ∧ t.reg x = b &&& nn ∧ (∀ r, r ≠ x → t.reg r = s.reg r) ∧
        t = { s with v := t.v, rndQueue := rest }) ∧
    ∀ s : State, s.rndQueue = [] →
      ∃ t, exec (.rnd x nn) s = .next t ∧ (∃ b : Byte, t.reg x = b &&& nn) ∧
        (∀ r, r ≠ x → t.reg r = s.reg r) ∧ t = { s with v := t.v, rndDraws := s.rndDraws + 1 }

/-! ### Index register and memory -/

/-- R150: load index. -/
def Obligations.LoadIndexImmediate : Prop :=
  ∀ nnn : Addr, decodeWord (0xA#4 ++ nnn) = .ok (.ldI nnn) ∧
    ∀ s : State, ∃ t, exec (.ldI nnn) s = .next t ∧ t.i.toNat = nnn.toNat ∧ t = { s with i := t.i }

/-- R151 (decision D16): `I + V[X]` modulo 65536, no mask, no flag. -/
def Obligations.AddToIndexWrapsAtSixteenBits : Prop :=
  ∀ x : Reg, decodeWord (0xF#4 ++ regBits x ++ 0x1E#8) = .ok (.addI x) ∧
    ∀ s : State, ∃ t, exec (.addI x) s = .next t ∧ t.i.toNat = (s.i.toNat + (s.reg x).toNat) % 65536 ∧
      t = { s with i := t.i }

/-- R152 under either `FX29_MODE` (decision D5; the default is log entry 2's). -/
def Obligations.FontAddressUnderBothModes : Prop :=
  ∀ x : Reg, decodeWord (0xF#4 ++ regBits x ++ 0x29#8) = .ok (.ldFont x) ∧
    ∀ s : State, ∃ t, exec (.ldFont x) s = .next t ∧ t = { s with i := t.i } ∧
      (s.params.fx29Mode = .corrected → t.i.toNat = 0x50 + 5 * ((s.reg x).toNat % 16)) ∧
      (s.params.fx29Mode = .source → t.i.toNat = (0x50 + (s.reg x).toNat) % 16)

/-- R154, its fault under decision D9: the three decimal digits at `I`, `I + 1`, `I + 2`, every other byte as before. -/
def Obligations.BcdStoresThreeDigits : Prop :=
  ∀ (x : Reg), decodeWord (0xF#4 ++ regBits x ++ 0x33#8) = .ok (.ldBcd x) ∧
    ∀ s : State,
      (s.i.toNat + 3 ≤ 4096 → ∃ t, exec (.ldBcd x) s = .next t ∧ t = { s with mem := t.mem } ∧
        (∀ a, a < s.dataAddr 0 ∨ s.dataAddr 2 < a → t.mem.get a = s.mem.get a) ∧
        (s.mem.wf = true →
          (t.mem.get (s.dataAddr 0)).toNat * 100 + (t.mem.get (s.dataAddr 1)).toNat * 10
            + (t.mem.get (s.dataAddr 2)).toNat = (s.reg x).toNat ∧
          (t.mem.get (s.dataAddr 1)).toNat < 10 ∧ (t.mem.get (s.dataAddr 2)).toNat < 10)) ∧
      (4096 < s.i.toNat + 3 → exec (.ldBcd x) s = .fault .dataAddressOutOfRange)

/-- R155, its fault under decision D9: `V[0]` to `V[X]` at `I` upward, `I` up by X + 1, every other byte as before. -/
def Obligations.StoreRegistersWritesTheBlock : Prop :=
  ∀ (x : Reg), decodeWord (0xF#4 ++ regBits x ++ 0x55#8) = .ok (.ldMemRegs x) ∧
    ∀ s : State,
      (s.i.toNat + x.val < 4096 → ∃ t, exec (.ldMemRegs x) s = .next t ∧
        t.i.toNat = s.i.toNat + x.val + 1 ∧ t = { s with mem := t.mem, i := t.i } ∧
        (∀ a, a < s.dataAddr 0 ∨ s.dataAddr x.val < a → t.mem.get a = s.mem.get a) ∧
        (s.mem.wf = true → ∀ r : Reg, r ≤ x → t.mem.get (s.dataAddr r.val) = s.reg r)) ∧
      (4096 ≤ s.i.toNat + x.val → exec (.ldMemRegs x) s = .fault .dataAddressOutOfRange)

/-- R156, its fault under decision D9: memory at `I` upward to `V[0]` to `V[X]`, `I` up by X + 1, no other register. -/
def Obligations.LoadRegistersReadsTheBlock : Prop :=
  ∀ (x : Reg), decodeWord (0xF#4 ++ regBits x ++ 0x65#8) = .ok (.ldRegsMem x) ∧
    ∀ s : State,
      (s.i.toNat + x.val < 4096 → ∃ t, exec (.ldRegsMem x) s = .next t ∧
        t.i.toNat = s.i.toNat + x.val + 1 ∧ t = { s with v := t.v, i := t.i } ∧
        (∀ r : Reg, r ≤ x → t.reg r = s.mem.get (s.dataAddr r.val)) ∧
        (∀ r : Reg, x < r → t.reg r = s.reg r)) ∧
      (4096 ≤ s.i.toNat + x.val → exec (.ldRegsMem x) s = .fault .dataAddressOutOfRange)

/-- R158: `FX55` and `FX65` add X + 1 to `I`, `FX33` and `DXYN` leave it, and a block stored and loaded again with
`I` reloaded comes back. -/
def Obligations.BlockRoundTripAndWhatAdvancesIndex : Prop :=
  (∀ (x : Reg) (s t : State), exec (.ldMemRegs x) s = .next t → t.i = s.i + BitVec.ofNat 16 (x.val + 1)) ∧
  (∀ (x : Reg) (s t : State), exec (.ldRegsMem x) s = .next t → t.i = s.i + BitVec.ofNat 16 (x.val + 1)) ∧
  (∀ (x : Reg) (s t : State), exec (.ldBcd x) s = .next t → t.i = s.i) ∧
  (∀ (x y : Reg) (n : Nibble) (s t : State), exec (.drw x y n) s = .next t → t.i = s.i) ∧
  ∀ (x : Reg) (s t u : State), s.mem.wf = true → exec (.ldMemRegs x) s = .next t → u.mem = t.mem → u.i = s.i →
    ∃ w, exec (.ldRegsMem x) u = .next w ∧ (∀ r : Reg, r ≤ x → w.reg r = s.reg r) ∧ w.i = t.i

/-- R51 (decision D14): a block store over the next instruction is what the next fetch reads. -/
def Obligations.StoredCodeIsFetchedAtOnce : Prop :=
  ∀ (x : Reg) (s t : State), s.mem.wf = true → 1 ≤ x.val → s.i = s.pc → exec (.ldMemRegs x) s = .next t →
    fetchWord t = .ok (bytesWord (s.reg 0) (s.reg 1))

/-- Two memories in canonical form that read alike at the 4096 addresses of R22 are the same data. The canonical listing
is the model's own representation of memory (log entry 1, a DESIGN CHOICE). -/
def Obligations.CanonicalMemoriesThatReadAlikeAreEqual : Prop :=
  ∀ m m' : Memory, m.wf = true → m'.wf = true → (∀ a, a < 4096 → m.get a = m'.get a) → m = m'

/-! ### Display -/

/-- R170 (decision D19): every pixel off, the draw pending, nothing else changed. -/
def Obligations.ClearScreenTurnsEveryPixelOff : Prop :=
  decodeWord 0x00E0 = .ok .cls ∧
  ∀ s : State, ∃ t, exec .cls s = .next t ∧ (∀ px py, t.pixel px py = false) ∧ t.shouldDraw = true ∧
    t = { s with screen := t.screen, shouldDraw := t.shouldDraw }

/-- R171 to R175 pixel by pixel (decisions D4, D7, D8, D18, D19): every pixel is the exclusive-or of what it was and
the sprite's bit, VF is 1 exactly when some pixel was lit under a sprite bit, and no byte of memory changes. -/
def Obligations.DrawXorsTheSpriteAndDetectsCollision : Prop :=
  ∀ (x y : Reg) (n : Nibble), decodeWord (0xD#4 ++ regBits x ++ regBits y ++ n) = .ok (.drw x y n) ∧
    ∀ s : State, (n = 0 ∨ s.i.toNat + n.toNat ≤ 4096) →
      ∃ t, exec (.drw x y n) s = .next t ∧
        (∀ px py, t.pixel px py = (s.pixel px py ^^ spriteBit s x y n px py)) ∧
        ((∃ px py, s.pixel px py = true ∧ spriteBit s x y n px py = true) → t.reg 15 = 1) ∧
        ((¬ ∃ px py, s.pixel px py = true ∧ spriteBit s x y n px py = true) → t.reg 15 = 0) ∧
        (∀ r, r ≠ 15 → t.reg r = s.reg r) ∧ t.shouldDraw = true ∧
        t = { s with screen := t.screen, v := t.v, shouldDraw := t.shouldDraw }

/-- The document's draw property (R171): the same sprite drawn again at the same place restores the framebuffer, and
the second draw sets VF exactly when a sprite pixel landed on an unlit pixel at the first. -/
def Obligations.DrawingTwiceRestoresTheScreen : Prop :=
  ∀ (x y : Reg) (n : Nibble) (s t : State), exec (.drw x y n) s = .next t →
    ∃ u, exec (.drw x y n) { t with v := s.v } = .next u ∧ u.screen = s.screen ∧
      (u.reg 15 = 1 ↔ ∃ px py, s.pixel px py = false ∧ spriteBit s x y n px py = true)

/-- R172 (decision D7): the two values of `DRAW_Y_MODULUS` agree while `V[Y] mod 64 < 32`; otherwise 64 draws nothing. -/
def Obligations.DrawModuliAgreeAboveTheFold : Prop :=
  ∀ (x y : Reg) (n : Nibble) (s : State) (p32 p64 : Params), p32.drawYModulus = .m32 → p64.drawYModulus = .m64 →
    ((s.reg y).toNat % 64 < 32 →
      mapNext (fun t => { t with params := s.params }) (exec (.drw x y n) { s with params := p32 }) =
      mapNext (fun t => { t with params := s.params }) (exec (.drw x y n) { s with params := p64 })) ∧
    (32 ≤ (s.reg y).toNat % 64 → ∀ t, exec (.drw x y n) { s with params := p64 } = .next t →
      t.screen = s.screen ∧ t.reg 15 = 0 ∧ t.shouldDraw = true)

/-! ### Keys and timers -/

/-- R190, R191: the key skips look at the low nibble of `V[X]` and at `keyMask`. -/
def Obligations.KeySkipsTestTheKeyMask : Prop :=
  ∀ x : Reg, decodeWord (0xE#4 ++ regBits x ++ 0x9E#8) = .ok (.skp x) ∧
    decodeWord (0xE#4 ++ regBits x ++ 0xA1#8) = .ok (.sknp x) ∧
    ∀ s : State,
      exec (.skp x) s = .next { s with
        pc := if s.keyMask.getLsbD ((s.reg x).toNat % 16) = true then s.pc + 2 else s.pc } ∧
      exec (.sknp x) s = .next { s with
        pc := if s.keyMask.getLsbD ((s.reg x).toNat % 16) = false then s.pc + 2 else s.pc }

/-- R194, R195, R196: timers move to and from a register; `beep` follows the new `ST` (R234). -/
def Obligations.TimerMoves : Prop :=
  ∀ x : Reg, decodeWord (0xF#4 ++ regBits x ++ 0x07#8) = .ok (.ldVxDt x) ∧
    decodeWord (0xF#4 ++ regBits x ++ 0x15#8) = .ok (.ldDtVx x) ∧
    decodeWord (0xF#4 ++ regBits x ++ 0x18#8) = .ok (.ldStVx x) ∧
    ∀ s : State, WritesRegister (.ldVxDt x) x s s.dt ∧
      exec (.ldDtVx x) s = .next { s with dt := s.reg x } ∧
      ∃ t, exec (.ldStVx x) s = .next t ∧ t = { s with st := s.reg x } ∧ (t.beep = true ↔ s.reg x ≠ 0)

/-- R192 under either `FX0A_MODE` (decision D6; the default is log entry 2's): when it waits, `PC` goes back by 2 and
nothing else changes; when it completes, `V[X]` is the lowest reported key and nothing else changes. -/
def Obligations.KeyWaitRewindsOrReportsTheLowestKey : Prop :=
  ∀ x : Reg, decodeWord (0xF#4 ++ regBits x ++ 0x0A#8) = .ok (.ldVxKey x) ∧
    ∀ s : State,
      let released := fun k : Nat => s.prevKeyMask.getLsbD k && !s.keyMask.getLsbD k
      let changed := fun k : Nat => s.prevKeyMask.getLsbD k != s.keyMask.getLsbD k
      (s.params.fx0aMode = .edge →
        ((∀ k, released k = false) → exec (.ldVxKey x) s = .next { s with pc := s.pc - 2 }) ∧
        (∀ k, released k = true → (∀ j, j < k → released j = false) →
          WritesRegister (.ldVxKey x) x s (BitVec.ofNat 8 k))) ∧
      (s.params.fx0aMode = .source →
        (s.prevKeyMask.toNat ≤ s.keyMask.toNat → exec (.ldVxKey x) s = .next { s with pc := s.pc - 2 }) ∧
        (s.keyMask.toNat < s.prevKeyMask.toNat → ∀ k, changed k = true → (∀ j, j < k → changed j = false) →
          WritesRegister (.ldVxKey x) x s (BitVec.ofNat 8 k)))

/-- R198 (a): the two modes of `FX0A` agree unless a press and a release fall between the same two ticks. -/
def Obligations.KeyWaitModesAgreeUnlessPressMeetsRelease : Prop :=
  ∀ (x : Reg) (s : State) (pe ps : Params), pe.fx0aMode = .edge → ps.fx0aMode = .source →
    (s.prevKeyMask &&& ~~~s.keyMask = 0 ∨ s.keyMask &&& ~~~s.prevKeyMask = 0) →
      mapNext (fun t => { t with params := s.params }) (exec (.ldVxKey x) { s with params := pe }) =
      mapNext (fun t => { t with params := s.params }) (exec (.ldVxKey x) { s with params := ps })

/-! ### The whole machine -/

/-- R26: whatever instruction runs, an element outside its row's write column is as before. The model's own fields are
covered too, `CXNN` alone drawing from the random input (log entries 2 and 4 to 6, the model's choice). -/
def Obligations.HandlersWriteOnlyTheirListedElements : Prop :=
  ∀ (i : Instr) (s t : State) (e : Element), exec i s = .next t → mayWrite i e = false → SameIn s t e

/-- R12: every instruction that writes VF as a flag leaves 0 or 1 in it; for `x = 15` under decision D4 (log entry 9). -/
def Obligations.FlagWritersLeaveZeroOrOne : Prop :=
  ∀ (x y : Reg) (n : Nibble) (i : Instr) (s t : State),
    i ∈ [.orReg x y, .andReg x y, .xorReg x y, .addReg x y, .subReg x y, .shrReg x y, .subnReg x y, .shlReg x y,
      .drw x y n] → exec i s = .next t → t.reg 15 = 0 ∨ t.reg 15 = 1

/-- R27 (a derived rule), with the canonical form of memory: every step keeps the invariant. -/
def Obligations.StepKeepsTheInvariant : Prop := ∀ s t : State, StateInv s → step s = .next t → StateInv t

/-- R27: the reset state satisfies the invariant. -/
def Obligations.ResetStateSatisfiesTheInvariant : Prop := StateInv State.reset

/-- R27: every sequence of commands that ends in a state keeps the invariant, in any order the host issues them, also
through a fault or a refused `Reset` that a later `Reset` clears (R216, R236). -/
def Obligations.CommandsKeepTheInvariant : Prop :=
  ∀ (cs : List Command) (s t : State), StateInv s → commands cs s = .next t → StateInv t

/-- R21: `shouldDraw` never influences what the engine computes. -/
def Obligations.ShouldDrawNeverInfluencesAStep : Prop :=
  ∀ (s : State) (b : Bool),
    mapNext (fun t => { t with shouldDraw := false }) (step { s with shouldDraw := b }) =
    mapNext (fun t => { t with shouldDraw := false }) (step s)

/-- R18, R24: `ST` is seen by no instruction: no step's other results depend on it. -/
def Obligations.SoundTimerNeverInfluencesAStep : Prop :=
  ∀ (s : State) (b : Byte),
    mapNext (fun t => { t with st := 0 }) (step { s with st := b }) =
    mapNext (fun t => { t with st := 0 }) (step s)

/-- R24: `prevKeyMask` is seen only through `FX0A`: no other instruction's result depends on it. -/
def Obligations.PrevKeyMaskIsSeenOnlyByKeyWait : Prop :=
  ∀ (i : Instr) (s : State) (m : Word), (∀ x, i ≠ .ldVxKey x) →
    exec i { s with prevKeyMask := m } = mapNext (fun t => { t with prevKeyMask := m }) (exec i s)
end

