-- ==== Sys2Proof/Laws/Memory.lean ====
section
/-! SUPPORT. Memory: a read after a write, the bytes a write leaves alone, and the canonical form kept. -/

namespace Sys2Proof.Machine

/-! ### Entries in front of a memory -/

theorem Memory.get_cellOf_append_of_ne {a a' : Nat} (h : a' ≠ a) (b : Byte) (m : Memory) :
    Memory.get (cellOf a b ++ m) a' = m.get a' := by
  unfold cellOf
  split <;> simp [Memory.get, h]

theorem Memory.get_eq_background_of_wfFrom {m : Memory} {lo a : Nat} (h : m.wfFrom lo = true) (ha : a < lo) :
    m.get a = background a := by
  induction m generalizing lo with
  | nil => rfl
  | cons c rest ih =>
    obtain ⟨k, b⟩ := c
    simp only [Memory.wfFrom, Bool.and_eq_true, decide_eq_true_eq] at h
    have hk : a ≠ k := by omega
    simp only [Memory.get, hk, if_false]
    exact ih h.2 (by omega)

theorem Memory.get_cellOf_append {lo a : Nat} {b : Byte} {m : Memory} (h : m.wfFrom lo = true) (ha : a < lo) :
    Memory.get (cellOf a b ++ m) a = b := by
  unfold cellOf
  split
  · rename_i hb
    simp [Memory.get_eq_background_of_wfFrom h ha, hb]
  · simp [Memory.get]

theorem Memory.wfFrom_mono {m : Memory} {lo lo' : Nat} (h : m.wfFrom lo = true) (hl : lo' ≤ lo) :
    m.wfFrom lo' = true := by
  cases m with
  | nil => rfl
  | cons c rest =>
    obtain ⟨k, b⟩ := c
    simp only [Memory.wfFrom, Bool.and_eq_true, decide_eq_true_eq] at h ⊢
    exact ⟨⟨⟨by omega, h.1.1.2⟩, h.1.2⟩, h.2⟩

theorem Memory.wfFrom_cellOf_append {lo a : Nat} {b : Byte} {m : Memory} (ha : lo ≤ a) (hm : a < Config.memSize)
    (h : m.wfFrom (a + 1) = true) : Memory.wfFrom lo (cellOf a b ++ m) = true := by
  unfold cellOf
  split
  · exact Memory.wfFrom_mono h (by omega)
  · rename_i hb
    simp [Memory.wfFrom, ha, hm, hb, h]

/-! ### One byte -/

/-- A write changes no other byte, whatever the memory. -/
theorem Memory.get_set_of_ne {a a' : Nat} (h : a' ≠ a) (b : Byte) (m : Memory) : (m.set a b).get a' = m.get a' := by
  induction m with
  | nil => simpa [Memory.set] using Memory.get_cellOf_append_of_ne h b []
  | cons c rest ih =>
    obtain ⟨k, e⟩ := c
    simp only [Memory.set]
    split
    · exact Memory.get_cellOf_append_of_ne h b _
    · split
      · rename_i hk
        rw [Memory.get_cellOf_append_of_ne h, Memory.get, if_neg (hk ▸ h)]
      · simp only [Memory.get, ih]

theorem Memory.get_set_self_from {m : Memory} {lo a : Nat} (h : m.wfFrom lo = true) (b : Byte) :
    (m.set a b).get a = b := by
  induction m generalizing lo with
  | nil => simpa [Memory.set] using Memory.get_cellOf_append (lo := a + 1) (b := b) (m := []) rfl (Nat.lt_succ_self a)
  | cons c rest ih =>
    obtain ⟨k, e⟩ := c
    have hw := h
    simp only [Memory.wfFrom, Bool.and_eq_true, decide_eq_true_eq] at h
    simp only [Memory.set]
    split
    · rename_i hk
      refine Memory.get_cellOf_append (lo := k) ?_ hk
      simp only [Memory.wfFrom, Bool.and_eq_true, decide_eq_true_eq]
      exact ⟨⟨⟨by omega, h.1.1.2⟩, h.1.2⟩, h.2⟩
    · split
      · rename_i hk
        exact Memory.get_cellOf_append (lo := k + 1) h.2 (by omega)
      · rename_i hk
        simp only [Memory.get, hk, if_false]
        exact ih h.2

/-- A read after a write to the same place gives the value written (R49). -/
theorem Memory.get_set_self {m : Memory} (h : m.wf = true) (a : Nat) (b : Byte) : (m.set a b).get a = b :=
  Memory.get_set_self_from h b

theorem Memory.wfFrom_set {m : Memory} {lo a : Nat} (h : m.wfFrom lo = true) (hl : lo ≤ a)
    (ha : a < Config.memSize) (b : Byte) : (m.set a b).wfFrom lo = true := by
  induction m generalizing lo with
  | nil =>
    have := Memory.wfFrom_cellOf_append (b := b) (m := []) hl ha rfl
    simpa [Memory.set] using this
  | cons c rest ih =>
    obtain ⟨k, e⟩ := c
    simp only [Memory.wfFrom, Bool.and_eq_true, decide_eq_true_eq] at h
    simp only [Memory.set]
    split
    · rename_i hk
      refine Memory.wfFrom_cellOf_append hl ha ?_
      simp only [Memory.wfFrom, Bool.and_eq_true, decide_eq_true_eq]
      exact ⟨⟨⟨by omega, h.1.1.2⟩, h.1.2⟩, h.2⟩
    · split
      · rename_i hk
        exact Memory.wfFrom_cellOf_append hl ha (hk ▸ h.2)
      · rename_i hk hk'
        simp only [Memory.wfFrom, Bool.and_eq_true, decide_eq_true_eq]
        exact ⟨⟨⟨h.1.1.1, h.1.1.2⟩, h.1.2⟩, ih h.2 (by omega)⟩

/-- A write inside memory keeps the canonical form. -/
theorem Memory.wf_set {m : Memory} (h : m.wf = true) {a : Nat} (ha : a < Config.memSize) (b : Byte) :
    (m.set a b).wf = true := Memory.wfFrom_set h (Nat.zero_le _) ha b

/-! ### Several bytes -/

@[simp] theorem length_readBytes (m : Memory) (a n : Nat) : (readBytes m a n).length = n := by
  induction n generalizing a with
  | zero => rfl
  | succ n ih => simp [readBytes, ih]

/-- The `k`-th byte read is the byte at address `a + k`. -/
theorem getElem_readBytes (m : Memory) (a n k : Nat) (hk : k < (readBytes m a n).length) :
    (readBytes m a n)[k] = m.get (a + k) := by
  induction n generalizing a k with
  | zero => simp [readBytes] at hk
  | succ n ih =>
    cases k with
    | zero => rfl
    | succ k =>
      simp only [readBytes, List.getElem_cons_succ]
      rw [ih (a + 1) k]
      congr 1
      omega

/-- Bytes outside the range written are unchanged, whatever the memory. -/
theorem get_writeBytes_of_outside (m : Memory) (a a' : Nat) (bs : List Byte)
    (h : a' < a ∨ a + bs.length ≤ a') : (writeBytes m a bs).get a' = m.get a' := by
  induction bs generalizing m a with
  | nil => rfl
  | cons b bs ih =>
    simp only [List.length_cons] at h
    rw [writeBytes, ih _ _ (by omega), Memory.get_set_of_ne (by omega)]

/-- Writing bytes inside memory keeps the canonical form. -/
theorem wf_writeBytes {m : Memory} (h : m.wf = true) {a : Nat} (bs : List Byte)
    (ha : a + bs.length ≤ Config.memSize) : (writeBytes m a bs).wf = true := by
  induction bs generalizing m a with
  | nil => exact h
  | cons b bs ih =>
    simp only [List.length_cons] at ha
    exact ih (Memory.wf_set h (by omega) b) (by omega)

/-- Inside the range written, the byte at `a + k` is the `k`-th byte written. -/
theorem get_writeBytes_inside {m : Memory} (h : m.wf = true) {a : Nat} (bs : List Byte)
    (ha : a + bs.length ≤ Config.memSize) (k : Nat) (hk : k < bs.length) :
    (writeBytes m a bs).get (a + k) = bs[k] := by
  induction bs generalizing m a k with
  | nil => simp at hk
  | cons b bs ih =>
    simp only [List.length_cons] at ha hk
    cases k with
    | zero =>
      rw [writeBytes, get_writeBytes_of_outside _ _ _ _ (by omega)]
      exact Memory.get_set_self h a b
    | succ k =>
      have := ih (Memory.wf_set h (a := a) (by omega) b) (a := a + 1) (by omega) k (by omega)
      rw [writeBytes]
      simpa [Nat.add_assoc, Nat.add_comm 1 k] using this

/-- The reset memory has the canonical form. -/
theorem wf_reset_mem : State.reset.mem.wf = true := rfl

end Sys2Proof.Machine
end

