-- ==== Sys2Proof/Laws/State.lean ====
section
/-! SUPPORT. One lemma per field per update of the state, so that no proof unfolds a record update. -/

namespace Sys2Proof.Machine

variable (s : State)

/-! ### setMem -/

@[simp] theorem State.setMem_mem (m : Memory) : (s.setMem m).mem = m := rfl
@[simp] theorem State.setMem_v (m : Memory) : (s.setMem m).v = s.v := rfl
@[simp] theorem State.setMem_i (m : Memory) : (s.setMem m).i = s.i := rfl
@[simp] theorem State.setMem_pc (m : Memory) : (s.setMem m).pc = s.pc := rfl
@[simp] theorem State.setMem_stack (m : Memory) : (s.setMem m).stack = s.stack := rfl
@[simp] theorem State.setMem_sp (m : Memory) : (s.setMem m).sp = s.sp := rfl
@[simp] theorem State.setMem_dt (m : Memory) : (s.setMem m).dt = s.dt := rfl
@[simp] theorem State.setMem_st (m : Memory) : (s.setMem m).st = s.st := rfl
@[simp] theorem State.setMem_prevKeyMask (m : Memory) : (s.setMem m).prevKeyMask = s.prevKeyMask := rfl
@[simp] theorem State.setMem_keyMask (m : Memory) : (s.setMem m).keyMask = s.keyMask := rfl
@[simp] theorem State.setMem_screen (m : Memory) : (s.setMem m).screen = s.screen := rfl
@[simp] theorem State.setMem_shouldDraw (m : Memory) : (s.setMem m).shouldDraw = s.shouldDraw := rfl
@[simp] theorem State.setMem_params (m : Memory) : (s.setMem m).params = s.params := rfl
@[simp] theorem State.setMem_slot (m : Memory) : (s.setMem m).slot = s.slot := rfl
@[simp] theorem State.setMem_rndQueue (m : Memory) : (s.setMem m).rndQueue = s.rndQueue := rfl
@[simp] theorem State.setMem_rndDraws (m : Memory) : (s.setMem m).rndDraws = s.rndDraws := rfl
@[simp] theorem State.setMem_frameQueue (m : Memory) : (s.setMem m).frameQueue = s.frameQueue := rfl
@[simp] theorem State.setMem_frameDraws (m : Memory) : (s.setMem m).frameDraws = s.frameDraws := rfl
@[simp] theorem State.reg_setMem (m : Memory) (x : Reg) : (s.setMem m).reg x = s.reg x := rfl
@[simp] theorem State.stackAt_setMem (m : Memory) (j : BitVec 4) : (s.setMem m).stackAt j = s.stackAt j := rfl

/-! ### setV -/

@[simp] theorem State.setV_mem (r : Vector Byte 16) : (s.setV r).mem = s.mem := rfl
@[simp] theorem State.setV_v (r : Vector Byte 16) : (s.setV r).v = r := rfl
@[simp] theorem State.setV_i (r : Vector Byte 16) : (s.setV r).i = s.i := rfl
@[simp] theorem State.setV_pc (r : Vector Byte 16) : (s.setV r).pc = s.pc := rfl
@[simp] theorem State.setV_stack (r : Vector Byte 16) : (s.setV r).stack = s.stack := rfl
@[simp] theorem State.setV_sp (r : Vector Byte 16) : (s.setV r).sp = s.sp := rfl
@[simp] theorem State.setV_dt (r : Vector Byte 16) : (s.setV r).dt = s.dt := rfl
@[simp] theorem State.setV_st (r : Vector Byte 16) : (s.setV r).st = s.st := rfl
@[simp] theorem State.setV_prevKeyMask (r : Vector Byte 16) : (s.setV r).prevKeyMask = s.prevKeyMask := rfl
@[simp] theorem State.setV_keyMask (r : Vector Byte 16) : (s.setV r).keyMask = s.keyMask := rfl
@[simp] theorem State.setV_screen (r : Vector Byte 16) : (s.setV r).screen = s.screen := rfl
@[simp] theorem State.setV_shouldDraw (r : Vector Byte 16) : (s.setV r).shouldDraw = s.shouldDraw := rfl
@[simp] theorem State.setV_params (r : Vector Byte 16) : (s.setV r).params = s.params := rfl
@[simp] theorem State.setV_slot (r : Vector Byte 16) : (s.setV r).slot = s.slot := rfl
@[simp] theorem State.setV_rndQueue (r : Vector Byte 16) : (s.setV r).rndQueue = s.rndQueue := rfl
@[simp] theorem State.setV_rndDraws (r : Vector Byte 16) : (s.setV r).rndDraws = s.rndDraws := rfl
@[simp] theorem State.setV_frameQueue (r : Vector Byte 16) : (s.setV r).frameQueue = s.frameQueue := rfl
@[simp] theorem State.setV_frameDraws (r : Vector Byte 16) : (s.setV r).frameDraws = s.frameDraws := rfl
@[simp] theorem State.stackAt_setV (r : Vector Byte 16) (j : BitVec 4) : (s.setV r).stackAt j = s.stackAt j := rfl

/-! ### setI -/

@[simp] theorem State.setI_mem (w : Word) : (s.setI w).mem = s.mem := rfl
@[simp] theorem State.setI_v (w : Word) : (s.setI w).v = s.v := rfl
@[simp] theorem State.setI_i (w : Word) : (s.setI w).i = w := rfl
@[simp] theorem State.setI_pc (w : Word) : (s.setI w).pc = s.pc := rfl
@[simp] theorem State.setI_stack (w : Word) : (s.setI w).stack = s.stack := rfl
@[simp] theorem State.setI_sp (w : Word) : (s.setI w).sp = s.sp := rfl
@[simp] theorem State.setI_dt (w : Word) : (s.setI w).dt = s.dt := rfl
@[simp] theorem State.setI_st (w : Word) : (s.setI w).st = s.st := rfl
@[simp] theorem State.setI_prevKeyMask (w : Word) : (s.setI w).prevKeyMask = s.prevKeyMask := rfl
@[simp] theorem State.setI_keyMask (w : Word) : (s.setI w).keyMask = s.keyMask := rfl
@[simp] theorem State.setI_screen (w : Word) : (s.setI w).screen = s.screen := rfl
@[simp] theorem State.setI_shouldDraw (w : Word) : (s.setI w).shouldDraw = s.shouldDraw := rfl
@[simp] theorem State.setI_params (w : Word) : (s.setI w).params = s.params := rfl
@[simp] theorem State.setI_slot (w : Word) : (s.setI w).slot = s.slot := rfl
@[simp] theorem State.setI_rndQueue (w : Word) : (s.setI w).rndQueue = s.rndQueue := rfl
@[simp] theorem State.setI_rndDraws (w : Word) : (s.setI w).rndDraws = s.rndDraws := rfl
@[simp] theorem State.setI_frameQueue (w : Word) : (s.setI w).frameQueue = s.frameQueue := rfl
@[simp] theorem State.setI_frameDraws (w : Word) : (s.setI w).frameDraws = s.frameDraws := rfl
@[simp] theorem State.reg_setI (w : Word) (x : Reg) : (s.setI w).reg x = s.reg x := rfl
@[simp] theorem State.stackAt_setI (w : Word) (j : BitVec 4) : (s.setI w).stackAt j = s.stackAt j := rfl

/-! ### setPc -/

@[simp] theorem State.setPc_mem (w : Word) : (s.setPc w).mem = s.mem := rfl
@[simp] theorem State.setPc_v (w : Word) : (s.setPc w).v = s.v := rfl
@[simp] theorem State.setPc_i (w : Word) : (s.setPc w).i = s.i := rfl
@[simp] theorem State.setPc_pc (w : Word) : (s.setPc w).pc = w := rfl
@[simp] theorem State.setPc_stack (w : Word) : (s.setPc w).stack = s.stack := rfl
@[simp] theorem State.setPc_sp (w : Word) : (s.setPc w).sp = s.sp := rfl
@[simp] theorem State.setPc_dt (w : Word) : (s.setPc w).dt = s.dt := rfl
@[simp] theorem State.setPc_st (w : Word) : (s.setPc w).st = s.st := rfl
@[simp] theorem State.setPc_prevKeyMask (w : Word) : (s.setPc w).prevKeyMask = s.prevKeyMask := rfl
@[simp] theorem State.setPc_keyMask (w : Word) : (s.setPc w).keyMask = s.keyMask := rfl
@[simp] theorem State.setPc_screen (w : Word) : (s.setPc w).screen = s.screen := rfl
@[simp] theorem State.setPc_shouldDraw (w : Word) : (s.setPc w).shouldDraw = s.shouldDraw := rfl
@[simp] theorem State.setPc_params (w : Word) : (s.setPc w).params = s.params := rfl
@[simp] theorem State.setPc_slot (w : Word) : (s.setPc w).slot = s.slot := rfl
@[simp] theorem State.setPc_rndQueue (w : Word) : (s.setPc w).rndQueue = s.rndQueue := rfl
@[simp] theorem State.setPc_rndDraws (w : Word) : (s.setPc w).rndDraws = s.rndDraws := rfl
@[simp] theorem State.setPc_frameQueue (w : Word) : (s.setPc w).frameQueue = s.frameQueue := rfl
@[simp] theorem State.setPc_frameDraws (w : Word) : (s.setPc w).frameDraws = s.frameDraws := rfl
@[simp] theorem State.reg_setPc (w : Word) (x : Reg) : (s.setPc w).reg x = s.reg x := rfl
@[simp] theorem State.stackAt_setPc (w : Word) (j : BitVec 4) : (s.setPc w).stackAt j = s.stackAt j := rfl

/-! ### setStack -/

@[simp] theorem State.setStack_mem (k : Vector Word 16) : (s.setStack k).mem = s.mem := rfl
@[simp] theorem State.setStack_v (k : Vector Word 16) : (s.setStack k).v = s.v := rfl
@[simp] theorem State.setStack_i (k : Vector Word 16) : (s.setStack k).i = s.i := rfl
@[simp] theorem State.setStack_pc (k : Vector Word 16) : (s.setStack k).pc = s.pc := rfl
@[simp] theorem State.setStack_stack (k : Vector Word 16) : (s.setStack k).stack = k := rfl
@[simp] theorem State.setStack_sp (k : Vector Word 16) : (s.setStack k).sp = s.sp := rfl
@[simp] theorem State.setStack_dt (k : Vector Word 16) : (s.setStack k).dt = s.dt := rfl
@[simp] theorem State.setStack_st (k : Vector Word 16) : (s.setStack k).st = s.st := rfl
@[simp] theorem State.setStack_prevKeyMask (k : Vector Word 16) : (s.setStack k).prevKeyMask = s.prevKeyMask := rfl
@[simp] theorem State.setStack_keyMask (k : Vector Word 16) : (s.setStack k).keyMask = s.keyMask := rfl
@[simp] theorem State.setStack_screen (k : Vector Word 16) : (s.setStack k).screen = s.screen := rfl
@[simp] theorem State.setStack_shouldDraw (k : Vector Word 16) : (s.setStack k).shouldDraw = s.shouldDraw := rfl
@[simp] theorem State.setStack_params (k : Vector Word 16) : (s.setStack k).params = s.params := rfl
@[simp] theorem State.setStack_slot (k : Vector Word 16) : (s.setStack k).slot = s.slot := rfl
@[simp] theorem State.setStack_rndQueue (k : Vector Word 16) : (s.setStack k).rndQueue = s.rndQueue := rfl
@[simp] theorem State.setStack_rndDraws (k : Vector Word 16) : (s.setStack k).rndDraws = s.rndDraws := rfl
@[simp] theorem State.setStack_frameQueue (k : Vector Word 16) : (s.setStack k).frameQueue = s.frameQueue := rfl
@[simp] theorem State.setStack_frameDraws (k : Vector Word 16) : (s.setStack k).frameDraws = s.frameDraws := rfl
@[simp] theorem State.reg_setStack (k : Vector Word 16) (x : Reg) : (s.setStack k).reg x = s.reg x := rfl

/-! ### setSp -/

@[simp] theorem State.setSp_mem (p : BitVec 4) : (s.setSp p).mem = s.mem := rfl
@[simp] theorem State.setSp_v (p : BitVec 4) : (s.setSp p).v = s.v := rfl
@[simp] theorem State.setSp_i (p : BitVec 4) : (s.setSp p).i = s.i := rfl
@[simp] theorem State.setSp_pc (p : BitVec 4) : (s.setSp p).pc = s.pc := rfl
@[simp] theorem State.setSp_stack (p : BitVec 4) : (s.setSp p).stack = s.stack := rfl
@[simp] theorem State.setSp_sp (p : BitVec 4) : (s.setSp p).sp = p := rfl
@[simp] theorem State.setSp_dt (p : BitVec 4) : (s.setSp p).dt = s.dt := rfl
@[simp] theorem State.setSp_st (p : BitVec 4) : (s.setSp p).st = s.st := rfl
@[simp] theorem State.setSp_prevKeyMask (p : BitVec 4) : (s.setSp p).prevKeyMask = s.prevKeyMask := rfl
@[simp] theorem State.setSp_keyMask (p : BitVec 4) : (s.setSp p).keyMask = s.keyMask := rfl
@[simp] theorem State.setSp_screen (p : BitVec 4) : (s.setSp p).screen = s.screen := rfl
@[simp] theorem State.setSp_shouldDraw (p : BitVec 4) : (s.setSp p).shouldDraw = s.shouldDraw := rfl
@[simp] theorem State.setSp_params (p : BitVec 4) : (s.setSp p).params = s.params := rfl
@[simp] theorem State.setSp_slot (p : BitVec 4) : (s.setSp p).slot = s.slot := rfl
@[simp] theorem State.setSp_rndQueue (p : BitVec 4) : (s.setSp p).rndQueue = s.rndQueue := rfl
@[simp] theorem State.setSp_rndDraws (p : BitVec 4) : (s.setSp p).rndDraws = s.rndDraws := rfl
@[simp] theorem State.setSp_frameQueue (p : BitVec 4) : (s.setSp p).frameQueue = s.frameQueue := rfl
@[simp] theorem State.setSp_frameDraws (p : BitVec 4) : (s.setSp p).frameDraws = s.frameDraws := rfl
@[simp] theorem State.reg_setSp (p : BitVec 4) (x : Reg) : (s.setSp p).reg x = s.reg x := rfl
@[simp] theorem State.stackAt_setSp (p : BitVec 4) (j : BitVec 4) : (s.setSp p).stackAt j = s.stackAt j := rfl

/-! ### setDt -/

@[simp] theorem State.setDt_mem (b : Byte) : (s.setDt b).mem = s.mem := rfl
@[simp] theorem State.setDt_v (b : Byte) : (s.setDt b).v = s.v := rfl
@[simp] theorem State.setDt_i (b : Byte) : (s.setDt b).i = s.i := rfl
@[simp] theorem State.setDt_pc (b : Byte) : (s.setDt b).pc = s.pc := rfl
@[simp] theorem State.setDt_stack (b : Byte) : (s.setDt b).stack = s.stack := rfl
@[simp] theorem State.setDt_sp (b : Byte) : (s.setDt b).sp = s.sp := rfl
@[simp] theorem State.setDt_dt (b : Byte) : (s.setDt b).dt = b := rfl
@[simp] theorem State.setDt_st (b : Byte) : (s.setDt b).st = s.st := rfl
@[simp] theorem State.setDt_prevKeyMask (b : Byte) : (s.setDt b).prevKeyMask = s.prevKeyMask := rfl
@[simp] theorem State.setDt_keyMask (b : Byte) : (s.setDt b).keyMask = s.keyMask := rfl
@[simp] theorem State.setDt_screen (b : Byte) : (s.setDt b).screen = s.screen := rfl
@[simp] theorem State.setDt_shouldDraw (b : Byte) : (s.setDt b).shouldDraw = s.shouldDraw := rfl
@[simp] theorem State.setDt_params (b : Byte) : (s.setDt b).params = s.params := rfl
@[simp] theorem State.setDt_slot (b : Byte) : (s.setDt b).slot = s.slot := rfl
@[simp] theorem State.setDt_rndQueue (b : Byte) : (s.setDt b).rndQueue = s.rndQueue := rfl
@[simp] theorem State.setDt_rndDraws (b : Byte) : (s.setDt b).rndDraws = s.rndDraws := rfl
@[simp] theorem State.setDt_frameQueue (b : Byte) : (s.setDt b).frameQueue = s.frameQueue := rfl
@[simp] theorem State.setDt_frameDraws (b : Byte) : (s.setDt b).frameDraws = s.frameDraws := rfl
@[simp] theorem State.reg_setDt (b : Byte) (x : Reg) : (s.setDt b).reg x = s.reg x := rfl
@[simp] theorem State.stackAt_setDt (b : Byte) (j : BitVec 4) : (s.setDt b).stackAt j = s.stackAt j := rfl

/-! ### setSt -/

@[simp] theorem State.setSt_mem (b : Byte) : (s.setSt b).mem = s.mem := rfl
@[simp] theorem State.setSt_v (b : Byte) : (s.setSt b).v = s.v := rfl
@[simp] theorem State.setSt_i (b : Byte) : (s.setSt b).i = s.i := rfl
@[simp] theorem State.setSt_pc (b : Byte) : (s.setSt b).pc = s.pc := rfl
@[simp] theorem State.setSt_stack (b : Byte) : (s.setSt b).stack = s.stack := rfl
@[simp] theorem State.setSt_sp (b : Byte) : (s.setSt b).sp = s.sp := rfl
@[simp] theorem State.setSt_dt (b : Byte) : (s.setSt b).dt = s.dt := rfl
@[simp] theorem State.setSt_st (b : Byte) : (s.setSt b).st = b := rfl
@[simp] theorem State.setSt_prevKeyMask (b : Byte) : (s.setSt b).prevKeyMask = s.prevKeyMask := rfl
@[simp] theorem State.setSt_keyMask (b : Byte) : (s.setSt b).keyMask = s.keyMask := rfl
@[simp] theorem State.setSt_screen (b : Byte) : (s.setSt b).screen = s.screen := rfl
@[simp] theorem State.setSt_shouldDraw (b : Byte) : (s.setSt b).shouldDraw = s.shouldDraw := rfl
@[simp] theorem State.setSt_params (b : Byte) : (s.setSt b).params = s.params := rfl
@[simp] theorem State.setSt_slot (b : Byte) : (s.setSt b).slot = s.slot := rfl
@[simp] theorem State.setSt_rndQueue (b : Byte) : (s.setSt b).rndQueue = s.rndQueue := rfl
@[simp] theorem State.setSt_rndDraws (b : Byte) : (s.setSt b).rndDraws = s.rndDraws := rfl
@[simp] theorem State.setSt_frameQueue (b : Byte) : (s.setSt b).frameQueue = s.frameQueue := rfl
@[simp] theorem State.setSt_frameDraws (b : Byte) : (s.setSt b).frameDraws = s.frameDraws := rfl
@[simp] theorem State.reg_setSt (b : Byte) (x : Reg) : (s.setSt b).reg x = s.reg x := rfl
@[simp] theorem State.stackAt_setSt (b : Byte) (j : BitVec 4) : (s.setSt b).stackAt j = s.stackAt j := rfl

/-! ### setKeys -/

@[simp] theorem State.setKeys_mem (p : Word) (n : Word) : (s.setKeys p n).mem = s.mem := rfl
@[simp] theorem State.setKeys_v (p : Word) (n : Word) : (s.setKeys p n).v = s.v := rfl
@[simp] theorem State.setKeys_i (p : Word) (n : Word) : (s.setKeys p n).i = s.i := rfl
@[simp] theorem State.setKeys_pc (p : Word) (n : Word) : (s.setKeys p n).pc = s.pc := rfl
@[simp] theorem State.setKeys_stack (p : Word) (n : Word) : (s.setKeys p n).stack = s.stack := rfl
@[simp] theorem State.setKeys_sp (p : Word) (n : Word) : (s.setKeys p n).sp = s.sp := rfl
@[simp] theorem State.setKeys_dt (p : Word) (n : Word) : (s.setKeys p n).dt = s.dt := rfl
@[simp] theorem State.setKeys_st (p : Word) (n : Word) : (s.setKeys p n).st = s.st := rfl
@[simp] theorem State.setKeys_prevKeyMask (p : Word) (n : Word) : (s.setKeys p n).prevKeyMask = p := rfl
@[simp] theorem State.setKeys_keyMask (p : Word) (n : Word) : (s.setKeys p n).keyMask = n := rfl
@[simp] theorem State.setKeys_screen (p : Word) (n : Word) : (s.setKeys p n).screen = s.screen := rfl
@[simp] theorem State.setKeys_shouldDraw (p : Word) (n : Word) : (s.setKeys p n).shouldDraw = s.shouldDraw := rfl
@[simp] theorem State.setKeys_params (p : Word) (n : Word) : (s.setKeys p n).params = s.params := rfl
@[simp] theorem State.setKeys_slot (p : Word) (n : Word) : (s.setKeys p n).slot = s.slot := rfl
@[simp] theorem State.setKeys_rndQueue (p : Word) (n : Word) : (s.setKeys p n).rndQueue = s.rndQueue := rfl
@[simp] theorem State.setKeys_rndDraws (p : Word) (n : Word) : (s.setKeys p n).rndDraws = s.rndDraws := rfl
@[simp] theorem State.setKeys_frameQueue (p : Word) (n : Word) : (s.setKeys p n).frameQueue = s.frameQueue := rfl
@[simp] theorem State.setKeys_frameDraws (p : Word) (n : Word) : (s.setKeys p n).frameDraws = s.frameDraws := rfl
@[simp] theorem State.reg_setKeys (p : Word) (n : Word) (x : Reg) : (s.setKeys p n).reg x = s.reg x := rfl
@[simp] theorem State.stackAt_setKeys (p : Word) (n : Word) (j : BitVec 4) : (s.setKeys p n).stackAt j = s.stackAt j := rfl

/-! ### setScreen -/

@[simp] theorem State.setScreen_mem (g : Vector Row 32) : (s.setScreen g).mem = s.mem := rfl
@[simp] theorem State.setScreen_v (g : Vector Row 32) : (s.setScreen g).v = s.v := rfl
@[simp] theorem State.setScreen_i (g : Vector Row 32) : (s.setScreen g).i = s.i := rfl
@[simp] theorem State.setScreen_pc (g : Vector Row 32) : (s.setScreen g).pc = s.pc := rfl
@[simp] theorem State.setScreen_stack (g : Vector Row 32) : (s.setScreen g).stack = s.stack := rfl
@[simp] theorem State.setScreen_sp (g : Vector Row 32) : (s.setScreen g).sp = s.sp := rfl
@[simp] theorem State.setScreen_dt (g : Vector Row 32) : (s.setScreen g).dt = s.dt := rfl
@[simp] theorem State.setScreen_st (g : Vector Row 32) : (s.setScreen g).st = s.st := rfl
@[simp] theorem State.setScreen_prevKeyMask (g : Vector Row 32) : (s.setScreen g).prevKeyMask = s.prevKeyMask := rfl
@[simp] theorem State.setScreen_keyMask (g : Vector Row 32) : (s.setScreen g).keyMask = s.keyMask := rfl
@[simp] theorem State.setScreen_screen (g : Vector Row 32) : (s.setScreen g).screen = g := rfl
@[simp] theorem State.setScreen_shouldDraw (g : Vector Row 32) : (s.setScreen g).shouldDraw = s.shouldDraw := rfl
@[simp] theorem State.setScreen_params (g : Vector Row 32) : (s.setScreen g).params = s.params := rfl
@[simp] theorem State.setScreen_slot (g : Vector Row 32) : (s.setScreen g).slot = s.slot := rfl
@[simp] theorem State.setScreen_rndQueue (g : Vector Row 32) : (s.setScreen g).rndQueue = s.rndQueue := rfl
@[simp] theorem State.setScreen_rndDraws (g : Vector Row 32) : (s.setScreen g).rndDraws = s.rndDraws := rfl
@[simp] theorem State.setScreen_frameQueue (g : Vector Row 32) : (s.setScreen g).frameQueue = s.frameQueue := rfl
@[simp] theorem State.setScreen_frameDraws (g : Vector Row 32) : (s.setScreen g).frameDraws = s.frameDraws := rfl
@[simp] theorem State.reg_setScreen (g : Vector Row 32) (x : Reg) : (s.setScreen g).reg x = s.reg x := rfl
@[simp] theorem State.stackAt_setScreen (g : Vector Row 32) (j : BitVec 4) : (s.setScreen g).stackAt j = s.stackAt j := rfl

/-! ### setShouldDraw -/

@[simp] theorem State.setShouldDraw_mem (b : Bool) : (s.setShouldDraw b).mem = s.mem := rfl
@[simp] theorem State.setShouldDraw_v (b : Bool) : (s.setShouldDraw b).v = s.v := rfl
@[simp] theorem State.setShouldDraw_i (b : Bool) : (s.setShouldDraw b).i = s.i := rfl
@[simp] theorem State.setShouldDraw_pc (b : Bool) : (s.setShouldDraw b).pc = s.pc := rfl
@[simp] theorem State.setShouldDraw_stack (b : Bool) : (s.setShouldDraw b).stack = s.stack := rfl
@[simp] theorem State.setShouldDraw_sp (b : Bool) : (s.setShouldDraw b).sp = s.sp := rfl
@[simp] theorem State.setShouldDraw_dt (b : Bool) : (s.setShouldDraw b).dt = s.dt := rfl
@[simp] theorem State.setShouldDraw_st (b : Bool) : (s.setShouldDraw b).st = s.st := rfl
@[simp] theorem State.setShouldDraw_prevKeyMask (b : Bool) : (s.setShouldDraw b).prevKeyMask = s.prevKeyMask := rfl
@[simp] theorem State.setShouldDraw_keyMask (b : Bool) : (s.setShouldDraw b).keyMask = s.keyMask := rfl
@[simp] theorem State.setShouldDraw_screen (b : Bool) : (s.setShouldDraw b).screen = s.screen := rfl
@[simp] theorem State.setShouldDraw_shouldDraw (b : Bool) : (s.setShouldDraw b).shouldDraw = b := rfl
@[simp] theorem State.setShouldDraw_params (b : Bool) : (s.setShouldDraw b).params = s.params := rfl
@[simp] theorem State.setShouldDraw_slot (b : Bool) : (s.setShouldDraw b).slot = s.slot := rfl
@[simp] theorem State.setShouldDraw_rndQueue (b : Bool) : (s.setShouldDraw b).rndQueue = s.rndQueue := rfl
@[simp] theorem State.setShouldDraw_rndDraws (b : Bool) : (s.setShouldDraw b).rndDraws = s.rndDraws := rfl
@[simp] theorem State.setShouldDraw_frameQueue (b : Bool) : (s.setShouldDraw b).frameQueue = s.frameQueue := rfl
@[simp] theorem State.setShouldDraw_frameDraws (b : Bool) : (s.setShouldDraw b).frameDraws = s.frameDraws := rfl
@[simp] theorem State.reg_setShouldDraw (b : Bool) (x : Reg) : (s.setShouldDraw b).reg x = s.reg x := rfl
@[simp] theorem State.stackAt_setShouldDraw (b : Bool) (j : BitVec 4) : (s.setShouldDraw b).stackAt j = s.stackAt j := rfl

/-! ### setSlot -/

@[simp] theorem State.setSlot_mem (k : Fin 9) : (s.setSlot k).mem = s.mem := rfl
@[simp] theorem State.setSlot_v (k : Fin 9) : (s.setSlot k).v = s.v := rfl
@[simp] theorem State.setSlot_i (k : Fin 9) : (s.setSlot k).i = s.i := rfl
@[simp] theorem State.setSlot_pc (k : Fin 9) : (s.setSlot k).pc = s.pc := rfl
@[simp] theorem State.setSlot_stack (k : Fin 9) : (s.setSlot k).stack = s.stack := rfl
@[simp] theorem State.setSlot_sp (k : Fin 9) : (s.setSlot k).sp = s.sp := rfl
@[simp] theorem State.setSlot_dt (k : Fin 9) : (s.setSlot k).dt = s.dt := rfl
@[simp] theorem State.setSlot_st (k : Fin 9) : (s.setSlot k).st = s.st := rfl
@[simp] theorem State.setSlot_prevKeyMask (k : Fin 9) : (s.setSlot k).prevKeyMask = s.prevKeyMask := rfl
@[simp] theorem State.setSlot_keyMask (k : Fin 9) : (s.setSlot k).keyMask = s.keyMask := rfl
@[simp] theorem State.setSlot_screen (k : Fin 9) : (s.setSlot k).screen = s.screen := rfl
@[simp] theorem State.setSlot_shouldDraw (k : Fin 9) : (s.setSlot k).shouldDraw = s.shouldDraw := rfl
@[simp] theorem State.setSlot_params (k : Fin 9) : (s.setSlot k).params = s.params := rfl
@[simp] theorem State.setSlot_slot (k : Fin 9) : (s.setSlot k).slot = k := rfl
@[simp] theorem State.setSlot_rndQueue (k : Fin 9) : (s.setSlot k).rndQueue = s.rndQueue := rfl
@[simp] theorem State.setSlot_rndDraws (k : Fin 9) : (s.setSlot k).rndDraws = s.rndDraws := rfl
@[simp] theorem State.setSlot_frameQueue (k : Fin 9) : (s.setSlot k).frameQueue = s.frameQueue := rfl
@[simp] theorem State.setSlot_frameDraws (k : Fin 9) : (s.setSlot k).frameDraws = s.frameDraws := rfl
@[simp] theorem State.reg_setSlot (k : Fin 9) (x : Reg) : (s.setSlot k).reg x = s.reg x := rfl
@[simp] theorem State.stackAt_setSlot (k : Fin 9) (j : BitVec 4) : (s.setSlot k).stackAt j = s.stackAt j := rfl

/-! ### setRnd -/

@[simp] theorem State.setRnd_mem (q : List Byte) (n : Nat) : (s.setRnd q n).mem = s.mem := rfl
@[simp] theorem State.setRnd_v (q : List Byte) (n : Nat) : (s.setRnd q n).v = s.v := rfl
@[simp] theorem State.setRnd_i (q : List Byte) (n : Nat) : (s.setRnd q n).i = s.i := rfl
@[simp] theorem State.setRnd_pc (q : List Byte) (n : Nat) : (s.setRnd q n).pc = s.pc := rfl
@[simp] theorem State.setRnd_stack (q : List Byte) (n : Nat) : (s.setRnd q n).stack = s.stack := rfl
@[simp] theorem State.setRnd_sp (q : List Byte) (n : Nat) : (s.setRnd q n).sp = s.sp := rfl
@[simp] theorem State.setRnd_dt (q : List Byte) (n : Nat) : (s.setRnd q n).dt = s.dt := rfl
@[simp] theorem State.setRnd_st (q : List Byte) (n : Nat) : (s.setRnd q n).st = s.st := rfl
@[simp] theorem State.setRnd_prevKeyMask (q : List Byte) (n : Nat) : (s.setRnd q n).prevKeyMask = s.prevKeyMask := rfl
@[simp] theorem State.setRnd_keyMask (q : List Byte) (n : Nat) : (s.setRnd q n).keyMask = s.keyMask := rfl
@[simp] theorem State.setRnd_screen (q : List Byte) (n : Nat) : (s.setRnd q n).screen = s.screen := rfl
@[simp] theorem State.setRnd_shouldDraw (q : List Byte) (n : Nat) : (s.setRnd q n).shouldDraw = s.shouldDraw := rfl
@[simp] theorem State.setRnd_params (q : List Byte) (n : Nat) : (s.setRnd q n).params = s.params := rfl
@[simp] theorem State.setRnd_slot (q : List Byte) (n : Nat) : (s.setRnd q n).slot = s.slot := rfl
@[simp] theorem State.setRnd_rndQueue (q : List Byte) (n : Nat) : (s.setRnd q n).rndQueue = q := rfl
@[simp] theorem State.setRnd_rndDraws (q : List Byte) (n : Nat) : (s.setRnd q n).rndDraws = n := rfl
@[simp] theorem State.setRnd_frameQueue (q : List Byte) (n : Nat) : (s.setRnd q n).frameQueue = s.frameQueue := rfl
@[simp] theorem State.setRnd_frameDraws (q : List Byte) (n : Nat) : (s.setRnd q n).frameDraws = s.frameDraws := rfl
@[simp] theorem State.reg_setRnd (q : List Byte) (n : Nat) (x : Reg) : (s.setRnd q n).reg x = s.reg x := rfl
@[simp] theorem State.stackAt_setRnd (q : List Byte) (n : Nat) (j : BitVec 4) : (s.setRnd q n).stackAt j = s.stackAt j := rfl

/-! ### setFrameIn -/

@[simp] theorem State.setFrameIn_mem (q : List FrameInput) (n : Nat) : (s.setFrameIn q n).mem = s.mem := rfl
@[simp] theorem State.setFrameIn_v (q : List FrameInput) (n : Nat) : (s.setFrameIn q n).v = s.v := rfl
@[simp] theorem State.setFrameIn_i (q : List FrameInput) (n : Nat) : (s.setFrameIn q n).i = s.i := rfl
@[simp] theorem State.setFrameIn_pc (q : List FrameInput) (n : Nat) : (s.setFrameIn q n).pc = s.pc := rfl
@[simp] theorem State.setFrameIn_stack (q : List FrameInput) (n : Nat) : (s.setFrameIn q n).stack = s.stack := rfl
@[simp] theorem State.setFrameIn_sp (q : List FrameInput) (n : Nat) : (s.setFrameIn q n).sp = s.sp := rfl
@[simp] theorem State.setFrameIn_dt (q : List FrameInput) (n : Nat) : (s.setFrameIn q n).dt = s.dt := rfl
@[simp] theorem State.setFrameIn_st (q : List FrameInput) (n : Nat) : (s.setFrameIn q n).st = s.st := rfl
@[simp] theorem State.setFrameIn_prevKeyMask (q : List FrameInput) (n : Nat) : (s.setFrameIn q n).prevKeyMask = s.prevKeyMask := rfl
@[simp] theorem State.setFrameIn_keyMask (q : List FrameInput) (n : Nat) : (s.setFrameIn q n).keyMask = s.keyMask := rfl
@[simp] theorem State.setFrameIn_screen (q : List FrameInput) (n : Nat) : (s.setFrameIn q n).screen = s.screen := rfl
@[simp] theorem State.setFrameIn_shouldDraw (q : List FrameInput) (n : Nat) : (s.setFrameIn q n).shouldDraw = s.shouldDraw := rfl
@[simp] theorem State.setFrameIn_params (q : List FrameInput) (n : Nat) : (s.setFrameIn q n).params = s.params := rfl
@[simp] theorem State.setFrameIn_slot (q : List FrameInput) (n : Nat) : (s.setFrameIn q n).slot = s.slot := rfl
@[simp] theorem State.setFrameIn_rndQueue (q : List FrameInput) (n : Nat) : (s.setFrameIn q n).rndQueue = s.rndQueue := rfl
@[simp] theorem State.setFrameIn_rndDraws (q : List FrameInput) (n : Nat) : (s.setFrameIn q n).rndDraws = s.rndDraws := rfl
@[simp] theorem State.setFrameIn_frameQueue (q : List FrameInput) (n : Nat) : (s.setFrameIn q n).frameQueue = q := rfl
@[simp] theorem State.setFrameIn_frameDraws (q : List FrameInput) (n : Nat) : (s.setFrameIn q n).frameDraws = n := rfl
@[simp] theorem State.reg_setFrameIn (q : List FrameInput) (n : Nat) (x : Reg) : (s.setFrameIn q n).reg x = s.reg x := rfl
@[simp] theorem State.stackAt_setFrameIn (q : List FrameInput) (n : Nat) (j : BitVec 4) : (s.setFrameIn q n).stackAt j = s.stackAt j := rfl

/-! ### V registers -/

theorem State.reg_setReg (x y : Reg) (b : Byte) :
    (s.setReg x b).reg y = if y = x then b else s.reg y := by
  simp only [State.reg, State.setReg, State.setV_v, Vector.getElem_set]
  by_cases h : y = x
  · simp [h]
  · have hv : x.val ≠ y.val := fun e => h (Fin.ext e.symm)
    simp only [hv, if_false, h]

@[simp] theorem State.reg_setReg_self (x : Reg) (b : Byte) : (s.setReg x b).reg x = b := by
  simp [State.reg_setReg]

theorem State.reg_setReg_of_ne {x y : Reg} (h : y ≠ x) (b : Byte) : (s.setReg x b).reg y = s.reg y := by
  simp [State.reg_setReg, h]

@[simp] theorem State.stackAt_setReg (x : Reg) (b : Byte) (j : BitVec 4) :
    (s.setReg x b).stackAt j = s.stackAt j := rfl

@[simp] theorem State.setReg_mem (x : Reg) (b : Byte) : (s.setReg x b).mem = s.mem := rfl
@[simp] theorem State.setReg_i (x : Reg) (b : Byte) : (s.setReg x b).i = s.i := rfl
@[simp] theorem State.setReg_pc (x : Reg) (b : Byte) : (s.setReg x b).pc = s.pc := rfl
@[simp] theorem State.setReg_stack (x : Reg) (b : Byte) : (s.setReg x b).stack = s.stack := rfl
@[simp] theorem State.setReg_sp (x : Reg) (b : Byte) : (s.setReg x b).sp = s.sp := rfl
@[simp] theorem State.setReg_dt (x : Reg) (b : Byte) : (s.setReg x b).dt = s.dt := rfl
@[simp] theorem State.setReg_st (x : Reg) (b : Byte) : (s.setReg x b).st = s.st := rfl
@[simp] theorem State.setReg_prevKeyMask (x : Reg) (b : Byte) : (s.setReg x b).prevKeyMask = s.prevKeyMask := rfl
@[simp] theorem State.setReg_keyMask (x : Reg) (b : Byte) : (s.setReg x b).keyMask = s.keyMask := rfl
@[simp] theorem State.setReg_screen (x : Reg) (b : Byte) : (s.setReg x b).screen = s.screen := rfl
@[simp] theorem State.setReg_shouldDraw (x : Reg) (b : Byte) : (s.setReg x b).shouldDraw = s.shouldDraw := rfl
@[simp] theorem State.setReg_params (x : Reg) (b : Byte) : (s.setReg x b).params = s.params := rfl
@[simp] theorem State.setReg_slot (x : Reg) (b : Byte) : (s.setReg x b).slot = s.slot := rfl
@[simp] theorem State.setReg_rndQueue (x : Reg) (b : Byte) : (s.setReg x b).rndQueue = s.rndQueue := rfl
@[simp] theorem State.setReg_rndDraws (x : Reg) (b : Byte) : (s.setReg x b).rndDraws = s.rndDraws := rfl
@[simp] theorem State.setReg_frameQueue (x : Reg) (b : Byte) : (s.setReg x b).frameQueue = s.frameQueue := rfl
@[simp] theorem State.setReg_frameDraws (x : Reg) (b : Byte) : (s.setReg x b).frameDraws = s.frameDraws := rfl

/-- Two states that agree in every register agree in `v`. -/
theorem regs_ext {v w : Vector Byte 16} (h : ∀ x : Reg, v[x.val] = w[x.val]) : v = w := by
  apply Vector.ext
  intro i hi
  exact h ⟨i, hi⟩

/-- Two states are equal when every field is. -/
theorem State.ext_fields {s t : State} (h0 : s.mem = t.mem) (h1 : s.v = t.v) (h2 : s.i = t.i) (h3 : s.pc = t.pc)
    (h4 : s.stack = t.stack) (h5 : s.sp = t.sp) (h6 : s.dt = t.dt) (h7 : s.st = t.st)
    (h8 : s.prevKeyMask = t.prevKeyMask) (h9 : s.keyMask = t.keyMask) (h10 : s.screen = t.screen)
    (h11 : s.shouldDraw = t.shouldDraw) (h12 : s.params = t.params) (h13 : s.slot = t.slot)
    (h14 : s.rndQueue = t.rndQueue) (h15 : s.rndDraws = t.rndDraws) (h16 : s.frameQueue = t.frameQueue)
    (h17 : s.frameDraws = t.frameDraws) : s = t := by
  cases s; cases t; simp_all

end Sys2Proof.Machine
end

