-- ==== Sys2Proof/Laws/Ops.lean ====
section
/-! SUPPORT. What each shared operation does, said once. -/

namespace Sys2Proof.Machine

variable {s t : State}

/-! ### Data accesses and fetch -/

/-- `withDataRange` answers the next state exactly when every byte lies inside memory. -/
theorem withDataRange_next_iff {n : Nat} {u : State} :
    withDataRange n s u = .next t ↔ (n = 0 ∨ s.i.toNat + n ≤ Config.memSize) ∧ t = u := by
  unfold withDataRange
  split <;> rename_i h <;> simp [State.dataInRange] at h <;> simp [h, eq_comm]

/-- Otherwise it faults, and with one fault only. -/
theorem withDataRange_fault_iff {n : Nat} {u : State} {f : Fault} :
    withDataRange n s u = .fault f ↔
      (n ≠ 0 ∧ Config.memSize < s.i.toNat + n) ∧ f = .dataAddressOutOfRange := by
  unfold withDataRange
  split <;> rename_i h <;> simp [State.dataInRange] at h <;> simp [h, eq_comm]
  omega

theorem withDataRange_not_refused {n : Nat} {u : State} {r : Refusal} : withDataRange n s u ≠ .refused r := by
  unfold withDataRange
  split <;> simp

/-- The three cases of fetch (R81, R47). -/
theorem fetchWord_cases (s : State) :
    (4096 ≤ s.pc.toNat ∧ fetchWord s = .ok 0xFFFF) ∨
    (s.pc.toNat = 4095 ∧ fetchWord s = .error .fetchStraddle) ∨
    (s.pc.toNat < 4095 ∧ fetchWord s = .ok (bytesWord (s.mem.get s.pc.toNat) (s.mem.get (s.pc.toNat + 1)))) := by
  by_cases h1 : 4096 ≤ s.pc.toNat
  · simp [fetchWord, Config.memSize, Config.invalidOpcode, h1]
  · by_cases h2 : s.pc.toNat = 4095
    · simp [fetchWord, Config.memSize, h2]
    · simp [fetchWord, Config.memSize, h1, h2]
      omega

/-! ### Registers -/

/-- The flag is what `V[15]` holds after a result and a flag are written, also when the result went there (R121). -/
theorem reg_writeResultFlag (s : State) (x y : Reg) (result : Byte) (flag : Bool) :
    (s.writeResultFlag x result flag).reg y =
      if y = vf then flagByte flag else if y = x then result else s.reg y := by
  simp [State.writeResultFlag, State.reg_setReg]

/-- Loading registers from number `k` upward (R156). -/
theorem getElem_loadRegs (v : Vector Byte 16) (k : Nat) (bs : List Byte) (j : Nat) (hj : j < 16) :
    (loadRegs v k bs)[j] = if h : k ≤ j ∧ j < k + bs.length then bs[j - k] else v[j] := by
  induction bs generalizing v k with
  | nil => simp [loadRegs]
  | cons b bs ih =>
    rw [loadRegs, ih]
    by_cases h1 : k + 1 ≤ j ∧ j < k + 1 + bs.length
    · have h2 : k ≤ j ∧ j < k + (b :: bs).length := by simp only [List.length_cons]; omega
      have h3 : j - k = (j - (k + 1)) + 1 := by omega
      simp only [dif_pos h1, dif_pos h2, h3, List.getElem_cons_succ]
    · by_cases h4 : j = k
      · subst h4
        simp
      · have h2 : ¬(k ≤ j ∧ j < k + (b :: bs).length) := by simp only [List.length_cons]; omega
        simp only [dif_neg h1, dif_neg h2]
        rw [Vector.getElem_setIfInBounds_ne _ (by omega)]

@[simp] theorem length_firstRegs (v : Vector Byte 16) (x : Reg) : (firstRegs v x).length = x.val + 1 := by
  simp [firstRegs]

theorem getElem_firstRegs (v : Vector Byte 16) (x : Reg) (k : Nat) (hk : k < (firstRegs v x).length) :
    (firstRegs v x)[k] = v[k]'(by simp at hk; omega) := by
  simp [firstRegs]

/-! ### The stack -/

/-- `stack[j]` after a push (R102, R110). -/
theorem stackAt_push (s : State) (w : Word) (j : BitVec 4) :
    (s.push w).stackAt j = if j = s.sp then w else s.stackAt j := by
  simp only [State.push, State.stackAt_setSp]
  simp only [State.stackAt, State.setStack_stack, Vector.getElem_set]
  by_cases h : j = s.sp
  · simp [h]
  · have hv : s.sp.toNat ≠ j.toNat := fun e => h (BitVec.eq_of_toNat_eq e.symm)
    simp only [hv, if_false, h]

/-! ### Sprites -/

/-- Exclusive-or of a mask into one row, row by row (R174). -/
theorem getElem_xorRow (g : Vector Row 32) (y : Nat) (m : Row) (j : Nat) (hj : j < 32) :
    (xorRow g y m)[j] = if j = y then g[j] ^^^ m else g[j] := by
  unfold xorRow
  split
  · rw [Vector.getElem_set]
    by_cases h : y = j
    · simp [h]
    · simp [h, Ne.symm h]
  · have h : j ≠ y := by omega
    simp [h]

/-- The rows after a sprite is drawn: row `y + r` takes sprite row `r` (R171, R174). -/
theorem getElem_drawRows (x0 : Nat) (g : Vector Row 32) (y : Nat) (bs : List Byte) (j : Nat) (hj : j < 32) :
    (drawRows x0 g y bs)[j] = if h : y ≤ j ∧ j < y + bs.length then g[j] ^^^ place bs[j - y] x0 else g[j] := by
  induction bs generalizing g y with
  | nil => simp [drawRows]
  | cons b bs ih =>
    rw [drawRows, ih]
    by_cases h1 : y + 1 ≤ j ∧ j < y + 1 + bs.length
    · have h2 : y ≤ j ∧ j < y + (b :: bs).length := by simp only [List.length_cons]; omega
      have h3 : j - y = (j - (y + 1)) + 1 := by omega
      have h4 : j ≠ y := by omega
      simp only [dif_pos h1, dif_pos h2, h3, List.getElem_cons_succ, getElem_xorRow, h4, if_false]
    · by_cases h4 : j = y
      · subst h4
        simp [getElem_xorRow]
      · have h2 : ¬(y ≤ j ∧ j < y + (b :: bs).length) := by simp only [List.length_cons]; omega
        simp only [dif_neg h1, dif_neg h2, getElem_xorRow, h4, if_false]

/-- The columns of a placed sprite row: bit `7 - c` of the byte at column `x0 + c`, nothing past column 63 (R173). -/
theorem getLsbD_place (b : Byte) (x0 x : Nat) (hx : x < 64) :
    (place b x0).getLsbD (63 - x) = (decide (x0 ≤ x) && decide (x < x0 + 8) && b.getLsbD (7 - (x - x0))) := by
  simp only [place, BitVec.getLsbD_ushiftRight, BitVec.getLsbD_shiftLeft, BitVec.getLsbD_setWidth]
  by_cases h1 : x0 ≤ x
  · by_cases h2 : x < x0 + 8
    · have h3 : x0 + (63 - x) - 56 = 7 - (x - x0) := by omega
      have h4 : x0 + (63 - x) < 64 := by omega
      have h5 : ¬ x0 + (63 - x) < 56 := by omega
      simp [h1, h2, h3, h4, h5]
      omega
    · have h5 : x0 + (63 - x) < 56 := by omega
      simp [h2, h5]
  · have h4 : ¬ x0 + (63 - x) < 64 := by omega
    simp [h1, h4]

/-! ### Keys -/

/-- The lowest set bit of a mask that has one (R192). -/
theorem lowestBit_spec {m : Word} (h : m ≠ 0) :
    lowestBit m < 16 ∧ m.getLsbD (lowestBit m) = true ∧ ∀ j, j < lowestBit m → m.getLsbD j = false := by
  unfold lowestBit
  cases hf : (List.range 16).find? (fun k => m.getLsbD k) with
  | none =>
    refine absurd (BitVec.eq_of_getLsbD_eq fun j hj => ?_) h
    simpa using List.find?_eq_none.mp hf j (List.mem_range.mpr hj)
  | some k =>
    obtain ⟨hk, as, bs, he, hn⟩ := List.find?_eq_some_iff_append.mp hf
    have hlen : as.length < 16 := by
      have := congrArg List.length he
      simp at this
      omega
    have hka : k = as.length := by
      have := congrArg (fun l => l[as.length]?) he
      simpa [hlen, eq_comm] using this
    subst hka
    refine ⟨hlen, hk, fun j (hj : j < as.length) => ?_⟩
    have hmem : j ∈ as := by
      have := congrArg (fun l => l[j]?) he
      rw [List.getElem?_append_left hj] at this
      simp only [List.getElem?_range (show j < 16 by omega)] at this
      exact List.mem_of_getElem? this.symm
    simpa using hn j hmem

/-! ### Inputs and the schedule -/

/-- Drawing a random byte changes nothing but the model's own input fields. -/
theorem takeRnd_eq (s : State) : ∃ q n, s.takeRnd = s.setRnd q n := by
  unfold State.takeRnd
  split <;> exact ⟨_, _, rfl⟩

/-- Taking a frame input changes nothing but the model's own input fields. -/
theorem takeFrameInput_eq (s : State) : ∃ q n, s.takeFrameInput = s.setFrameIn q n := by
  unfold State.takeFrameInput
  split <;> exact ⟨_, _, rfl⟩

/-- `PresentAck` when the host presents, nothing when it does not (R233). -/
theorem presentIf_eq (b : Bool) (s : State) : presentIf b s = if b then presentAck s else s := by
  cases b <;> cases s <;> simp [presentIf, presentAck, State.setShouldDraw]

/-- The schedule changes only the timers, the key masks, `shouldDraw` and the model's own fields (R220, R233). -/
theorem afterStep_frame (s : State) :
    (afterStep s).mem = s.mem ∧ (afterStep s).v = s.v ∧ (afterStep s).i = s.i ∧ (afterStep s).pc = s.pc ∧
    (afterStep s).stack = s.stack ∧ (afterStep s).sp = s.sp ∧ (afterStep s).screen = s.screen ∧
    (afterStep s).params = s.params ∧ (afterStep s).rndQueue = s.rndQueue ∧
    (afterStep s).rndDraws = s.rndDraws := by
  unfold afterStep
  split
  · obtain ⟨q, n, h⟩ := takeFrameInput_eq (s.setSlot 0)
    simp [endFrame, presentIf, tick, h]
  · simp

end Sys2Proof.Machine
end

