-- ==== Sys2Proof/Laws/Step.lean ====
section
/-! SUPPORT. What a `Step` can do, said once (R80), and what the machine's step adds to it (R90). -/

namespace Sys2Proof.Machine

variable {s t : State}

/-- The cases in which a `Step` gives a next state: it ran one decoded instruction, or it halted. -/
theorem stepCommand_next_cases (h : stepCommand s = .next t) :
    (∃ w i, fetchWord s = .ok w ∧ decodeWord w = .ok i ∧ exec i s.advancePc = .next t) ∨
    (∃ w e, fetchWord s = .ok w ∧ decodeWord w = .error e ∧ t = s.setPc 4096) := by
  unfold stepCommand at h
  split at h
  · cases h
  · rename_i w hw
    unfold runWord at h
    split at h
    · rename_i i hi
      exact .inl ⟨w, i, hw, hi, h⟩
    · rename_i e he
      refine .inr ⟨w, e, hw, he, ?_⟩
      cases h
      rfl

/-- The machine's step gives a next state exactly when its `Step` does, and then the schedule follows. -/
theorem step_next_iff : step s = .next t ↔ ∃ u, stepCommand s = .next u ∧ t = afterStep u := by
  unfold step
  split <;> rename_i h <;> simp [h, eq_comm]

/-- The machine's step faults exactly when its `Step` does. -/
theorem step_fault_iff {f : Fault} : step s = .fault f ↔ stepCommand s = .fault f := by
  unfold step
  split <;> rename_i h <;> simp [h]

/-! ### Runs -/

/-- A run of any machine goes on from the next state of its first step. -/
theorem core_run_succ_of_next (M : Host.Core) (n : Nat) (s t : M.State) (h : M.step s = .next t) :
    M.run (n + 1) s = M.run n t := by
  simp only [Host.Core.run, h]

/-- A run of any machine ends in the fault of its first step. -/
theorem core_run_succ_of_fault (M : Host.Core) (n : Nat) (s : M.State) (f : M.Fault) (h : M.step s = .fault f) :
    M.run (n + 1) s = .fault f := by
  simp only [Host.Core.run, h]

/-- A run of any machine ends in the refusal of its first step. -/
theorem core_run_succ_of_refused (M : Host.Core) (n : Nat) (s : M.State) (r : M.Refusal)
    (h : M.step s = .refused r) : M.run (n + 1) s = .refused r := by
  simp only [Host.Core.run, h]

@[simp] theorem run_zero (s : State) : Sys2Proof.core.run 0 s = .next s := rfl

/-- A run goes on from the next state of its first step. -/
theorem run_succ_of_next (h : step s = .next t) (n : Nat) :
    Sys2Proof.core.run (n + 1) s = Sys2Proof.core.run n t :=
  core_run_succ_of_next Sys2Proof.core n s t h

/-- A run ends in the fault of its first step. -/
theorem run_succ_of_fault {f : Fault} (h : step s = .fault f) (n : Nat) :
    Sys2Proof.core.run (n + 1) s = .fault f :=
  core_run_succ_of_fault Sys2Proof.core n s f h

/-- A run ends in the refusal of its first step. -/
theorem run_succ_of_refused {r : Refusal} (h : step s = .refused r) (n : Nat) :
    Sys2Proof.core.run (n + 1) s = .refused r :=
  core_run_succ_of_refused Sys2Proof.core n s r h

end Sys2Proof.Machine
end

