-- ==== Sys2Proof/Laws/Command.lean ====
section
/-! SUPPORT. What a session does with the host's commands (R216, R236), said once. -/

namespace Sys2Proof.Machine

/-- In a running session a command is the command on its state. -/
theorem Session.issue_live (c : Command) (s : State) :
    (Session.live s).issue c = Session.ofOutcome s (command c s) := by
  cases c <;> rfl

/-- `Reset` is the same command in a running and in a stopped session (R236). -/
theorem Session.issue_reset (rom : List Byte) (x : Session) :
    x.issue (.reset rom) = Session.ofOutcome x.last (command (.reset rom) x.last) := rfl

/-- No command but `Reset` clears a fault (R216). -/
theorem Session.issue_faulted {c : Command} (h : ∀ rom, c ≠ .reset rom) (f : Fault) (last : State) :
    (Session.faulted f last).issue c = .faulted f last := by
  cases c
  case reset rom => exact absurd rfl (h rom)
  all_goals rfl

/-- No command but `Reset` clears a refused `Reset` (R251). -/
theorem Session.issue_refused {c : Command} (h : ∀ rom, c ≠ .reset rom) (r : Refusal) (last : State) :
    (Session.refused r last).issue c = .refused r last := by
  cases c
  case reset rom => exact absurd rfl (h rom)
  all_goals rfl

theorem Session.issueAll_append (cs ds : List Command) (x : Session) :
    Session.issueAll (cs ++ ds) x = Session.issueAll ds (Session.issueAll cs x) := by
  induction cs generalizing x with
  | nil => rfl
  | cons c cs ih => exact ih (x.issue c)

@[simp] theorem Session.outcome_ofOutcome (last : State) (o : Outcome) : (Session.ofOutcome last o).outcome = o := by
  cases o <;> rfl

/-- A fault stays through any later commands without a `Reset` (R216). -/
theorem Session.issueAll_faulted {cs : List Command} (h : ∀ rom, Command.reset rom ∉ cs) (f : Fault) (last : State) :
    Session.issueAll cs (.faulted f last) = .faulted f last := by
  induction cs with
  | nil => rfl
  | cons c cs ih =>
    rw [Session.issueAll, Session.issue_faulted fun rom e => h rom (by simp [e])]
    exact ih fun rom hm => h rom (List.mem_cons_of_mem _ hm)

/-- A `Reset` as the last command gives what it gives in the session's last state, whatever happened before. -/
theorem commands_concat_reset (cs : List Command) (rom : List Byte) (s : State) :
    commands (cs ++ [.reset rom]) s = command (.reset rom) (Session.issueAll cs (.live s)).last := by
  simp [commands, Session.issueAll_append, Session.issueAll, Session.issue_reset]

end Sys2Proof.Machine
end

