-- ==== Sys2Proof/Laws/PerInstr.lean ====
section
/-! SUPPORT. Statements about every instruction as syntax, one lemma per constructor. -/

namespace Sys2Proof.Laws.EncodeInRow

/-- The encoder's word matches the instruction's own row of the dispatch table (R64, R66). -/
def Statement (i : Instr) : Prop := (rowOf i).matchesWord (encode i) = true

/-- A concatenation under a mask, half by half. -/
theorem append_and {a b : Nat} (u mu : BitVec a) (w mw : BitVec b) :
    (u ++ w) &&& (mu ++ mw) = (u &&& mu) ++ (w &&& mw) := by
  apply BitVec.eq_of_getLsbD_eq
  intro j hj
  simp only [BitVec.getLsbD_and, BitVec.getLsbD_append]
  split <;> rfl

/-- The test for each format of R62: fixed nibbles survive the mask, field nibbles do not. -/
theorem formatA (m : Nibble) (nnn : Addr) : (m ++ nnn) &&& (0xF#4 ++ 0#12) = m ++ 0#12 := by
  rw [append_and, BitVec.and_zero]
  congr 1
  exact BitVec.and_allOnes

theorem formatXI (m : Nibble) (x : Reg) (nn : Byte) :
    (m ++ regBits x ++ nn) &&& (0xF#4 ++ 0#4 ++ 0#8) = m ++ 0#4 ++ 0#8 := by
  rw [append_and, append_and, BitVec.and_zero, BitVec.and_zero]
  congr 2
  exact BitVec.and_allOnes

theorem formatXY (m : Nibble) (x y : Reg) (n : Nibble) :
    (m ++ regBits x ++ regBits y ++ n) &&& (0xF#4 ++ 0#4 ++ 0#4 ++ 0xF#4) = m ++ 0#4 ++ 0#4 ++ n := by
  rw [append_and, append_and, append_and, BitVec.and_zero, BitVec.and_zero]
  congr 3 <;> exact BitVec.and_allOnes

theorem formatXYN (m : Nibble) (x y : Reg) (n : Nibble) :
    (m ++ regBits x ++ regBits y ++ n) &&& (0xF#4 ++ 0#4 ++ 0#4 ++ 0#4) = m ++ 0#4 ++ 0#4 ++ 0#4 := by
  rw [append_and, append_and, append_and, BitVec.and_zero, BitVec.and_zero, BitVec.and_zero]
  congr 3
  exact BitVec.and_allOnes

theorem formatXS (m : Nibble) (x : Reg) (sub : Byte) :
    (m ++ regBits x ++ sub) &&& (0xF#4 ++ 0#4 ++ 0xFF#8) = m ++ 0#4 ++ sub := by
  rw [append_and, append_and, BitVec.and_zero]
  congr 2 <;> exact BitVec.and_allOnes

/-- A row's test, from the value under the row's mask. -/
theorem of_and_eq {i : Instr} (h : encode i &&& (rowOf i).mask = (rowOf i).value) : Statement i := by
  simp [Statement, OpcodeRow.matchesWord, h]

theorem cls : Statement .cls :=
  of_and_eq rfl

theorem ret : Statement .ret :=
  of_and_eq rfl

theorem jp (nnn : Addr) : Statement (.jp nnn) :=
  of_and_eq (formatA _ nnn)

theorem call (nnn : Addr) : Statement (.call nnn) :=
  of_and_eq (formatA _ nnn)

theorem seImm (x : Reg) (nn : Byte) : Statement (.seImm x nn) :=
  of_and_eq (formatXI _ x nn)

theorem sneImm (x : Reg) (nn : Byte) : Statement (.sneImm x nn) :=
  of_and_eq (formatXI _ x nn)

theorem seReg (x y : Reg) : Statement (.seReg x y) :=
  of_and_eq (formatXY _ x y _)

theorem ldImm (x : Reg) (nn : Byte) : Statement (.ldImm x nn) :=
  of_and_eq (formatXI _ x nn)

theorem addImm (x : Reg) (nn : Byte) : Statement (.addImm x nn) :=
  of_and_eq (formatXI _ x nn)

theorem ldReg (x y : Reg) : Statement (.ldReg x y) :=
  of_and_eq (formatXY _ x y _)

theorem orReg (x y : Reg) : Statement (.orReg x y) :=
  of_and_eq (formatXY _ x y _)

theorem andReg (x y : Reg) : Statement (.andReg x y) :=
  of_and_eq (formatXY _ x y _)

theorem xorReg (x y : Reg) : Statement (.xorReg x y) :=
  of_and_eq (formatXY _ x y _)

theorem addReg (x y : Reg) : Statement (.addReg x y) :=
  of_and_eq (formatXY _ x y _)

theorem subReg (x y : Reg) : Statement (.subReg x y) :=
  of_and_eq (formatXY _ x y _)

theorem shrReg (x y : Reg) : Statement (.shrReg x y) :=
  of_and_eq (formatXY _ x y _)

theorem subnReg (x y : Reg) : Statement (.subnReg x y) :=
  of_and_eq (formatXY _ x y _)

theorem shlReg (x y : Reg) : Statement (.shlReg x y) :=
  of_and_eq (formatXY _ x y _)

theorem sneReg (x y : Reg) : Statement (.sneReg x y) :=
  of_and_eq (formatXY _ x y _)

theorem ldI (nnn : Addr) : Statement (.ldI nnn) :=
  of_and_eq (formatA _ nnn)

theorem jpV0 (nnn : Addr) : Statement (.jpV0 nnn) :=
  of_and_eq (formatA _ nnn)

theorem rnd (x : Reg) (nn : Byte) : Statement (.rnd x nn) :=
  of_and_eq (formatXI _ x nn)

theorem drw (x y : Reg) (n : Nibble) : Statement (.drw x y n) :=
  of_and_eq (formatXYN _ x y n)

theorem skp (x : Reg) : Statement (.skp x) :=
  of_and_eq (formatXS _ x _)

theorem sknp (x : Reg) : Statement (.sknp x) :=
  of_and_eq (formatXS _ x _)

theorem ldVxDt (x : Reg) : Statement (.ldVxDt x) :=
  of_and_eq (formatXS _ x _)

theorem ldVxKey (x : Reg) : Statement (.ldVxKey x) :=
  of_and_eq (formatXS _ x _)

theorem ldDtVx (x : Reg) : Statement (.ldDtVx x) :=
  of_and_eq (formatXS _ x _)

theorem ldStVx (x : Reg) : Statement (.ldStVx x) :=
  of_and_eq (formatXS _ x _)

theorem addI (x : Reg) : Statement (.addI x) :=
  of_and_eq (formatXS _ x _)

theorem ldFont (x : Reg) : Statement (.ldFont x) :=
  of_and_eq (formatXS _ x _)

theorem ldBcd (x : Reg) : Statement (.ldBcd x) :=
  of_and_eq (formatXS _ x _)

theorem ldMemRegs (x : Reg) : Statement (.ldMemRegs x) :=
  of_and_eq (formatXS _ x _)

theorem ldRegsMem (x : Reg) : Statement (.ldRegsMem x) :=
  of_and_eq (formatXS _ x _)

end Sys2Proof.Laws.EncodeInRow
end

