-- ==== Sys2Proof/Tests/Slice0.lean ====
section
/-! SUPPORT. Tests: words from the encodings of R66, ill-formed words, one step on small states with the results that
95_test_vectors.md gives, and a witness for the hypotheses of every statement that has some. -/

open Sys2Proof Sys2Proof.Machine Sys2Proof.Stmt

namespace Sys2Proof.Tests

/-! ### Helpers -/

/-- The reset state with some V registers set. -/
def regs (l : List (Reg × Byte)) : State := l.foldl (fun s p => s.setReg p.1 p.2) State.reset

/-- A state with some memory bytes set. -/
def putMem (s : State) (a : Nat) (bs : List Byte) : State := s.setMem (writeBytes s.mem a bs)

/-- A state with the parameters changed. -/
def withParams (s : State) (f : Params → Params) : State := { s with params := f s.params }

/-- One step of the machine on a word placed at `PC`, and what a function says of the next state. -/
def after {α : Type} (s : State) (w : Nat) (f : State → α) : Option α :=
  match step (s.withFetchWord 16 w) with
  | .next t => some (f t)
  | _ => none

/-- The fault one step on a word placed at `PC` ends in. -/
def faultOf (s : State) (w : Nat) : Option Fault :=
  match step (s.withFetchWord 16 w) with
  | .fault f => some f
  | _ => none

/-- What a function says of the next state of an outcome. -/
def next {α : Type} (o : Outcome) (f : State → α) : Option α :=
  match o with
  | .next t => some (f t)
  | _ => none

/-- Two registers of a state. -/
def pair (x y : Reg) (t : State) : Byte × Byte := (t.reg x, t.reg y)

/-! ### Decoding: one word per row of R66, written out from its pattern -/

theorem test_decode_00E0 : decodeTableWord 16 0x00E0 = some .cls := by decide
theorem test_decode_00EE : decodeTableWord 16 0x00EE = some .ret := by decide
theorem test_decode_1NNN : decodeTableWord 16 0x1234 = some (.jp 0x234) := by decide
theorem test_decode_2NNN : decodeTableWord 16 0x2FFE = some (.call 0xFFE) := by decide
theorem test_decode_3XNN : decodeTableWord 16 0x3105 = some (.seImm 1 0x05) := by decide
theorem test_decode_4XNN : decodeTableWord 16 0x4208 = some (.sneImm 2 0x08) := by decide
theorem test_decode_5XY0 : decodeTableWord 16 0x5120 = some (.seReg 1 2) := by decide
theorem test_decode_6XNN : decodeTableWord 16 0x6E12 = some (.ldImm 14 0x12) := by decide
theorem test_decode_7XNN : decodeTableWord 16 0x7F02 = some (.addImm 15 0x02) := by decide
theorem test_decode_8XY0 : decodeTableWord 16 0x8120 = some (.ldReg 1 2) := by decide
theorem test_decode_8XY1 : decodeTableWord 16 0x8AB1 = some (.orReg 10 11) := by decide
theorem test_decode_8XY2 : decodeTableWord 16 0x8122 = some (.andReg 1 2) := by decide
theorem test_decode_8XY3 : decodeTableWord 16 0x8123 = some (.xorReg 1 2) := by decide
theorem test_decode_8XY4 : decodeTableWord 16 0x8124 = some (.addReg 1 2) := by decide
theorem test_decode_8XY5 : decodeTableWord 16 0x8125 = some (.subReg 1 2) := by decide
theorem test_decode_8XY6 : decodeTableWord 16 0x8126 = some (.shrReg 1 2) := by decide
theorem test_decode_8XY7 : decodeTableWord 16 0x8127 = some (.subnReg 1 2) := by decide
theorem test_decode_8XYE : decodeTableWord 16 0x812E = some (.shlReg 1 2) := by decide
theorem test_decode_9XY0 : decodeTableWord 16 0x9120 = some (.sneReg 1 2) := by decide
theorem test_decode_ANNN : decodeTableWord 16 0xA20C = some (.ldI 0x20C) := by decide
theorem test_decode_BNNN : decodeTableWord 16 0xB3FE = some (.jpV0 0x3FE) := by decide
theorem test_decode_CXNN : decodeTableWord 16 0xC30F = some (.rnd 3 0x0F) := by decide
theorem test_decode_DXYN : decodeTableWord 16 0xD125 = some (.drw 1 2 5) := by decide
theorem test_decode_EX9E : decodeTableWord 16 0xE19E = some (.skp 1) := by decide
theorem test_decode_EXA1 : decodeTableWord 16 0xE2A1 = some (.sknp 2) := by decide
theorem test_decode_FX07 : decodeTableWord 16 0xF307 = some (.ldVxDt 3) := by decide
theorem test_decode_FX0A : decodeTableWord 16 0xF50A = some (.ldVxKey 5) := by decide
theorem test_decode_FX15 : decodeTableWord 16 0xF115 = some (.ldDtVx 1) := by decide
theorem test_decode_FX18 : decodeTableWord 16 0xF118 = some (.ldStVx 1) := by decide
theorem test_decode_FX1E : decodeTableWord 16 0xF11E = some (.addI 1) := by decide
theorem test_decode_FX29 : decodeTableWord 16 0xF229 = some (.ldFont 2) := by decide
theorem test_decode_FX33 : decodeTableWord 16 0xF033 = some (.ldBcd 0) := by decide
theorem test_decode_FX55 : decodeTableWord 16 0xFF55 = some (.ldMemRegs 15) := by decide
theorem test_decode_FX65 : decodeTableWord 16 0xF265 = some (.ldRegsMem 2) := by decide

/-! ### Ill-formed words and images are refused: one word for each check of `legalWord` (R68, vectors E9, Z4) -/

theorem test_illegal_major_0 : legalWord 0x0123 = false ∧ decodeTableWord 16 0x0123 = none := by decide
theorem test_illegal_00FE : legalWord 0x00FE = false ∧ decodeTableWord 16 0x00FE = none := by decide
theorem test_illegal_5XY1 : legalWord 0x5121 = false ∧ decodeTableWord 16 0x5121 = none := by decide
theorem test_illegal_8XY8 : legalWord 0x8128 = false ∧ decodeTableWord 16 0x8128 = none := by decide
theorem test_illegal_8XYF : legalWord 0x812F = false ∧ decodeTableWord 16 0x812F = none := by decide
theorem test_illegal_9XY1 : legalWord 0x9121 = false ∧ decodeTableWord 16 0x9121 = none := by decide
theorem test_illegal_EX9F : legalWord 0xE19F = false ∧ decodeTableWord 16 0xE19F = none := by decide
theorem test_illegal_FX66 : legalWord 0xF166 = false ∧ decodeTableWord 16 0xF166 = none := by decide
theorem test_illegal_sentinel : legalWord 0xFFFF = false ∧ decodeTableWord 16 0xFFFF = none := by decide
theorem test_truncated : decodeBytes [0x00] = .error .truncated := by rfl
theorem test_rom_3584_fits : romFits (List.replicate 3584 0xAB) = true := by
  simp only [romFits, List.length_replicate]; decide
theorem test_rom_3585_refused : romFits (List.replicate 3585 0xAB) = false := by
  simp only [romFits, List.length_replicate]; decide

/-! ### Reset (Z1, Z2) -/

theorem test_reset_font_ends :
    readBytes State.reset.mem 0x50 5 = [0xF0, 0x90, 0x90, 0x90, 0xF0] ∧
    readBytes State.reset.mem 0x9B 5 = [0xF0, 0x80, 0xF0, 0x80, 0x80] ∧
    State.reset.mem.get 0x4F = 0 ∧ State.reset.mem.get 0xA0 = 0 := by decide
theorem test_reset_rom : next (resetWith defaultParams [0x12, 0x00])
    (fun t => (readBytes t.mem 0x200 3, t.pc, t.mem.wf)) = some ([0x12, 0x00, 0x00], 0x200, true) := by decide
theorem test_empty_rom_halts : next (step State.reset) (fun t => (t.pc, t.halted)) = some (4096, true) := by decide

/-- Z5 and R236: a running session, a faulted one and one whose last `Reset` was refused all start anew. -/
theorem test_reset_after_a_run : next (commands [.reset [0x12, 0x00]] ((regs [(3, 9)]).setSp 5))
    (fun t => (t.reg 3, t.sp, t.pc, readBytes t.mem 0x200 2)) = some (0, 0, 0x200, [0x12, 0x00]) := by decide
theorem test_reset_clears_a_fault : next (commands [.step 0, .presentAck, .reset [0x12, 0x00], .step 0]
    (State.reset.setPc 4095)) State.pc = some 0x200 := by decide
theorem test_only_reset_clears_a_fault :
    Session.issueAll [.step 0, .tick 0, .step 0, .presentAck] (.live (State.reset.setPc 4095))
      = .faulted .fetchStraddle (State.reset.setPc 4095) := by decide
theorem test_reset_after_a_refused_reset :
    next (Session.refused .romTooLarge State.reset |>.issue (.tick 1) |>.issue (.reset []) |>.outcome) State.pc
      = some 0x200 := by decide

/-! ### Engine cycle (E1, E3, E5 to E8) -/

theorem test_byte_order : next (step (putMem State.reset 0x200 [0x12, 0x34])) State.pc = some 0x234 := by decide
theorem test_wrapping_pc_halts : next (step (State.reset.setPc 65534)) State.pc = some 4096 := by decide
theorem test_fetch_straddle : (match step (State.reset.setPc 4095) with | .fault f => some f | _ => none)
    = some .fetchStraddle := by decide
theorem test_odd_pc : after (State.reset.setPc 0x201) 0x6007 (fun t => (t.reg 0, t.pc)) = some (7, 0x203) := by decide
theorem test_last_word : after (State.reset.setPc 4094) 0x6005 (fun t => (t.reg 0, t.pc, t.halted))
    = some (5, 4096, true) := by decide
theorem test_illegal_word_halts : after (regs [(3, 9)]) 0x8128 (fun t => (t.pc, t.reg 3)) = some (4096, 9) := by decide
theorem test_status : stepStatus (State.reset.withFetchWord 16 0x8128) = some .decodeFailure ∧
    stepStatus (State.reset.withFetchWord 16 0xF50A) = some .waiting ∧
    stepStatus (State.reset.withFetchWord 16 0x6005) = some .advanced ∧
    stepStatus (State.reset.setPc 4095) = none := by decide
theorem test_fetch_word_from_halt : after (State.reset.setPc 4096) 0x6005 (fun t => (t.reg 0, t.pc))
    = some (5, 0x202) := by decide

/-! ### Control transfer (T8, F1 to F14) -/

theorem test_ret_wraps : after { State.reset with stack := State.reset.stack.set 15 0x0ABC } 0x00EE
    (fun t => (t.sp, t.pc, t.stackAt 15)) = some (15, 0x0ABC, 0x0ABC) := by decide
theorem test_ret : after ((State.reset.push 0x0206).setPc 0x20A) 0x00EE (fun t => (t.sp, t.pc)) = some (0, 0x0206) := by
  decide
theorem test_jp_self : after State.reset 0x1200 (fun t => (t.pc, t.halted)) = some (0x200, false) := by decide
theorem test_call : after (State.reset.setPc 0x204) 0x220A (fun t => (t.stackAt 0, t.sp, t.pc))
    = some (0x0206, 1, 0x20A) := by decide
theorem test_call_wraps : after ((State.reset.setPc 0x204).setSp 15) 0x2300 (fun t => (t.stackAt 15, t.sp, t.pc))
    = some (0x0206, 0, 0x300) := by decide
theorem test_seImm_skips : after ((regs [(1, 5)]).setPc 4094) 0x3105 State.pc = some 4098 := by decide
theorem test_seImm_stays : after (regs [(1, 5)]) 0x3106 State.pc = some 0x202 := by decide
theorem test_sneImm_stays : after (regs [(2, 7)]) 0x4207 State.pc = some 0x202 := by decide
theorem test_sneImm_skips : after (regs [(2, 7)]) 0x4208 State.pc = some 0x204 := by decide
theorem test_seReg_same : after State.reset 0x5110 State.pc = some 0x204 := by decide
theorem test_sneReg_same : after State.reset 0x9110 State.pc = some 0x202 := by decide
theorem test_jpV0_far : after (regs [(0, 0xFF)]) 0xBFFF State.pc = some 4350 := by decide
theorem test_jpV0_register : after (regs [(0, 1), (3, 0x77)]) 0xB3FE State.pc = some 0x3FF := by decide

/-! ### Register ALU (table of 2.3, A1 to A20) -/

theorem test_ldImm : after State.reset 0x61FF (fun t => t.reg 1) = some 0xFF := by decide
theorem test_addImm : after (regs [(1, 0xFF), (15, 0x5A)]) 0x7102 (pair 1 15) = some (0x01, 0x5A) := by decide
theorem test_addImm_vf : after (regs [(15, 0xFF)]) 0x7F02 (fun t => t.reg 15) = some 0x01 := by decide
theorem test_ldReg : after (regs [(1, 0x85), (15, 0x90)]) 0x81F0 (pair 1 15) = some (0x90, 0x90) := by decide
theorem test_ldReg_vf : after (regs [(2, 0x85), (15, 0x90)]) 0x8F20 (fun t => t.reg 15) = some 0x85 := by decide
theorem test_orReg : after (regs [(1, 0x85), (15, 0x90)]) 0x81F1 (pair 1 15) = some (0x95, 0) := by decide
theorem test_orReg_vf : after (regs [(2, 0x85), (15, 0x90)]) 0x8F21 (fun t => t.reg 15) = some 0 := by decide
theorem test_andReg : after (regs [(1, 0x85), (15, 0x90)]) 0x81F2 (pair 1 15) = some (0x80, 0) := by decide
theorem test_andReg_vf : after (regs [(2, 0x85), (15, 0x90)]) 0x8F22 (fun t => t.reg 15) = some 0 := by decide
theorem test_xorReg : after (regs [(1, 0x85), (15, 0x90)]) 0x81F3 (pair 1 15) = some (0x15, 0) := by decide
theorem test_xorReg_vf : after (regs [(2, 0x85), (15, 0x90)]) 0x8F23 (fun t => t.reg 15) = some 0 := by decide
theorem test_addReg : after (regs [(1, 0xFF), (2, 0x01)]) 0x8124 (pair 1 15) = some (0x00, 1) := by decide
theorem test_addReg_vf : after (regs [(2, 0x85), (15, 0x90)]) 0x8F24 (fun t => t.reg 15) = some 1 := by decide
theorem test_subReg : after (regs [(1, 0x10), (2, 0x20), (15, 0xAA)]) 0x8125 (pair 1 15) = some (0xF0, 0) := by decide
theorem test_subReg_equal : after (regs [(1, 0x55), (2, 0x55)]) 0x8125 (pair 1 15) = some (0, 1) := by decide
theorem test_shrReg : after (regs [(1, 0xFF), (2, 0x01)]) 0x8126 (pair 1 15) = some (0x00, 1) := by decide
theorem test_shrReg_vy_vf : after (regs [(1, 0x85), (15, 0x90)]) 0x81F6 (pair 1 15) = some (0x48, 0) := by decide
theorem test_subnReg : after (regs [(1, 0xFF), (2, 0x01)]) 0x8127 (pair 1 15) = some (0x02, 0) := by decide
theorem test_subnReg_vf : after (regs [(2, 0x85), (15, 0x90)]) 0x8F27 (fun t => t.reg 15) = some 0 := by decide
theorem test_shlReg : after (regs [(1, 0x7F), (2, 0x81)]) 0x812E (pair 1 15) = some (0x02, 1) := by decide
theorem test_shlReg_vf : after (regs [(2, 0x85), (15, 0x90)]) 0x8F2E (fun t => t.reg 15) = some 1 := by decide
theorem test_rnd : after (State.reset.setRnd [0xA7] 0) 0xC30F (fun t => (t.reg 3, t.rndQueue)) = some (0x07, []) := by
  decide
theorem test_rnd_vf : after (State.reset.setRnd [0x5A] 0) 0xCFF0 (fun t => t.reg 15) = some 0x50 := by decide

/-! ### Index register and memory (M1 to M16) -/

theorem test_ldI : after State.reset 0xAFFF State.i = some 0x0FFF := by decide
theorem test_addI_no_mask : after ((regs [(1, 1)]).setI 0x0FFF) 0xF11E (fun t => (t.i, t.reg 15)) = some (0x1000, 0) := by
  decide
theorem test_addI_wraps : after ((regs [(1, 0xFF)]).setI 0xFFFF) 0xF11E State.i = some 0x00FE := by decide
theorem test_ldFont_corrected : after (regs [(2, 0x1A)]) 0xF229 State.i = some 0x082 := by decide
theorem test_ldFont_source : after (withParams (regs [(2, 0x1A)]) ({ · with fx29Mode := .source })) 0xF229 State.i
    = some 0x00A := by decide
theorem test_ldBcd : after ((regs [(0, 199)]).setI 0x300) 0xF033 (fun t => (readBytes t.mem 0x300 3, t.i))
    = some ([1, 9, 9], 0x300) := by decide
theorem test_ldBcd_over_font : after ((regs [(0, 0)]).setI 0x50) 0xF033 (fun t => readBytes t.mem 0x50 4)
    = some ([0, 0, 0, 0x90]) := by decide
theorem test_ldMemRegs_top : after ((regs [(0, 0xAB)]).setI 4095) 0xF055 (fun t => (t.mem.get 4095, t.i))
    = some (0xAB, 4096) := by decide
theorem test_ldMemRegs_fault : faultOf ((regs [(0, 0xAB)]).setI 4095) 0xF155 = some .dataAddressOutOfRange := by decide
theorem test_ldRegsMem : after ((putMem (regs [(1, 0x77)]) 0x400 [0x99, 0x55]).setI 0x400) 0xF065
    (fun t => (t.reg 0, t.reg 1, t.i)) = some (0x99, 0x77, 0x401) := by decide
theorem test_ldRegsMem_fault : faultOf (State.reset.setI 4096) 0xF065 = some .dataAddressOutOfRange := by decide

/-! ### Display (G1 to G18) -/

theorem test_cls : after { State.reset with screen := Vector.replicate 32 (-1) } 0x00E0
    (fun t => (t.screen, t.shouldDraw)) = some (Vector.replicate 32 0, true) := by decide
theorem test_drw_clips_columns : after ((putMem (regs [(1, 60)]) 0x300 [0xFF]).setI 0x300) 0xD121
    (fun t => (t.screen[0], t.reg 15, t.shouldDraw)) = some (0x000000000000000F, 0, true) := by decide
theorem test_drw_collides :
    after { (putMem (regs [(1, 4), (2, 1), (15, 9)]) 0x300 [0x3C, 0xC3]).setI 0x300 with
        screen := State.reset.screen.set 1 0x0100000000000000 } 0xD122
      (fun t => (t.screen[1], t.screen[2], t.reg 15)) = some (0x02C0000000000000, 0x0C30000000000000, 1) := by decide

/-! ### Keys and timers (K1 to K7, W1 to W12) -/

theorem test_skp : after ((regs [(1, 0x13)]).setKeys 0 0x0008) 0xE19E State.pc = some 0x204 := by decide
theorem test_sknp : after ((regs [(1, 0x13)]).setKeys 0 0x0008) 0xE1A1 State.pc = some 0x202 := by decide
theorem test_ldVxDt : after (State.reset.setDt 0x2A) 0xF307 (fun t => t.reg 3) = some 0x2A := by decide
theorem test_ldDtVx : after (regs [(1, 3)]) 0xF115 State.dt = some 3 := by decide
theorem test_ldStVx : after (regs [(1, 3)]) 0xF118 (fun t => (t.st, t.beep)) = some (3, true) := by decide
theorem test_ldVxKey_edge : after (State.reset.setKeys 0x0006 0x0005) 0xF50A (fun t => (t.reg 5, t.pc))
    = some (1, 0x202) := by decide
theorem test_ldVxKey_source :
    after (withParams (State.reset.setKeys 0x0006 0x0005) ({ · with fx0aMode := .source })) 0xF50A
      (fun t => (t.reg 5, t.pc)) = some (0, 0x202) ∧
    after (withParams (State.reset.setKeys 0x0008 0x0010) ({ · with fx0aMode := .source })) 0xF50A State.pc
      = some 0x200 := by decide
theorem test_tick : (fun t : State => (t.dt, t.st, t.prevKeyMask, t.keyMask))
      (tick 0x0F00 (((State.reset.setDt 2).setSt 1).setKeys 0 0x00F0)) = (1, 0, 0x00F0, 0x0F00) ∧
    (tick 0 State.reset).dt = 0 := by decide
theorem test_tick_on_a_halted_machine : next (command (.tick 1) (State.reset.setPc 4096))
    (fun t => (t.pc, t.keyMask)) = some (4096, 1) := by decide

/-! ### Witnesses: concrete states and operands that meet a statement's hypotheses, at the ends of each clause's range -/

/-- The machine about to run one word at `PC`. -/
def at_ (w : Nat) : State := State.reset.withFetchWord 16 w

theorem witness_ResetLeavesTheListedValues : Fits [] ∧ Fits (List.replicate 3584 0xAB) := by
  simp only [Fits, List.length_nil, List.length_replicate]; decide

theorem witness_EntryPointIsTheRomStart : ∃ t, resetWith defaultParams [0x12, 0x34] = .next t :=
  ⟨_, rfl⟩

theorem witness_DecodedWordEncodesBack : decodeWord 0x00E0 = .ok .cls ∧ decodeWord 0xDFFF = .ok (.drw 15 15 15) :=
  ⟨rfl, rfl⟩

theorem witness_DecoderIsTheDispatchTableMatch :
    decodeWord 0x00E0 = .ok .cls ∧ (rowOf .ret ∈ opcodeTable ∧ 0x00EE &&& (rowOf .ret).mask = (rowOf .ret).value) ∧
    ∀ r ∈ opcodeTable, (0xFFFF : Word) &&& r.mask ≠ r.value := by
  refine ⟨rfl, by decide, by decide⟩

theorem witness_StoredInstructionIsTheOneRun :
    State.reset.mem.wf = true ∧ State.reset.pc.toNat < 4095 ∧ (State.reset.setPc 4094).pc.toNat < 4095 ∧
    (State.reset.setPc 0).pc.toNat < 4095 := by decide

theorem witness_StepRunsTheDecodedInstruction :
    ((at_ 0x1200).pc.toNat < 4095 ∧ decodeWord (bytesWord ((at_ 0x1200).mem.get 512) ((at_ 0x1200).mem.get 513))
      = .ok (.jp 0x200)) := ⟨by decide, rfl⟩

theorem witness_FetchIsBigEndianOrSentinel :
    (State.reset.setPc 4094).pc.toNat < 4095 ∧ 4096 ≤ (State.reset.setPc 4096).pc.toNat ∧
    4096 ≤ (State.reset.setPc 0xFFFF).pc.toNat ∧ (State.reset.setPc 4095).pc.toNat = 4095 := by decide

theorem witness_IllegalWordHalts :
    (at_ 0xF166).pc.toNat < 4095 ∧
    legalWord (bytesWord ((at_ 0xF166).mem.get 512) ((at_ 0xF166).mem.get 513)) = false := by decide

theorem witness_HaltedPredicateAndNextStep :
    (State.reset.setPc 4096).halted = true ∧ (State.reset.setPc 0xFFFF).halted = true ∧
    (State.reset.setPc 4095).halted = false := by decide

theorem witness_HaltedRunsStayHalted : (State.reset.setPc 4096).halted = true := by decide

theorem witness_SelfJumpNeverHaltsNorFaults :
    (at_ 0x1200).pc.toNat = (0x200 : Addr).toNat ∧ (0x200 : Addr).toNat < 4095 ∧
    bytesWord ((at_ 0x1200).mem.get 512) ((at_ 0x1200).mem.get 513) = 0x1#4 ++ 0x200#12 := by decide

theorem witness_HandlerFaultsExactlyOutsideMemory :
    (dataBytes (.ldMemRegs 0) ≠ 0 ∧ 4096 < (State.reset.setI 4096).i.toNat + dataBytes (.ldMemRegs 0)) ∧
    ¬ 4096 < (State.reset.setI 4095).i.toNat + dataBytes (.ldMemRegs 0) ∧ dataBytes (.drw 0 0 0) = 0 := by decide

theorem witness_StepFaultsExactlyInTheTwoListedCases :
    (State.reset.setPc 4095).pc.toNat = 4095 ∧ faultOf (State.reset.setI 4094) 0xF033 = some .dataAddressOutOfRange ∧
    faultOf (State.reset.setI 4093) 0xF033 = none := by decide

theorem witness_StatusSaysWhatTheStepDid :
    (∃ t, stepCommand (at_ 0xF50A) = .next t) ∧ stepStatus (at_ 0xF50A) = some .waiting ∧
    (∃ t, stepCommand (at_ 0xFFFF) = .next t) ∧ stepStatus (at_ 0xFFFF) = some .decodeFailure ∧
    (∃ t, stepCommand (at_ 0x00E0) = .next t) ∧ stepStatus (at_ 0x00E0) ≠ some .waiting ∧
    stepStatus (at_ 0x00E0) ≠ some .decodeFailure :=
  ⟨⟨_, rfl⟩, by decide, ⟨_, rfl⟩, by decide, ⟨_, rfl⟩, by decide, by decide⟩

theorem witness_RandomInputMattersOnlyToRnd :
    ∀ w x nn, fetchWord (at_ 0x00E0) = .ok w → decodeWord w ≠ .ok (.rnd x nn) := by
  intro w x nn h
  obtain rfl : w = 0x00E0 := Except.ok.inj (h.symm.trans rfl)
  exact fun h2 => nomatch Except.ok.inj (h2.symm.trans (rfl : decodeWord 0x00E0 = .ok .cls))

theorem witness_TickFollowsTheNinthStep :
    (∃ t, stepCommand (at_ 0x00E0) = .next t) ∧ (at_ 0x00E0).slot.val < 8 ∧
    (∃ t, stepCommand ((at_ 0x00E0).setSlot 7) = .next t) ∧ ((at_ 0x00E0).setSlot 7).slot.val < 8 ∧
    (∃ t, stepCommand (((at_ 0x00E0).setSlot 8).setFrameIn [⟨1, true⟩] 0) = .next t) ∧
    (((at_ 0x00E0).setSlot 8).setFrameIn [⟨1, true⟩] 0).slot.val = 8 ∧
    (∃ t, stepCommand ((at_ 0x00E0).setSlot 8) = .next t) ∧ ((at_ 0x00E0).setSlot 8).slot.val = 8 ∧
    ((at_ 0x00E0).setSlot 8).frameQueue = [] :=
  ⟨⟨_, rfl⟩, by decide, ⟨_, rfl⟩, by decide, ⟨_, rfl⟩, by decide, ⟨_, rfl⟩, by decide, rfl⟩

theorem witness_NineStepsMakeOneFrame : State.reset.slot = 0 := by decide

theorem witness_SkipsAddTwoWhenTheComparisonHolds : (1 : Nibble) ≠ 0 ∧ (15 : Nibble) ≠ 0 := by decide

theorem witness_SixteenNestedCallsUnwind :
    (List.replicate 16 (0x300 : Addr)).length ≤ 16 ∧ List.replicate 16 (0x300 : Addr) ≠ [] ∧
    ([] : List Addr).length ≤ 16 := by decide

theorem witness_LogicAndArithmeticOnOtherRegisters : (1 : Reg) ≠ 15 ∧ (14 : Reg) ≠ 1 ∧ (14 : Reg) ≠ 15 := by decide

theorem witness_RandomByteUnderMask :
    (State.reset.setRnd [0xA7] 0).rndQueue = [0xA7] ∧ State.reset.rndQueue = [] := ⟨rfl, rfl⟩

theorem witness_FontAddressUnderBothModes :
    State.reset.params.fx29Mode = .corrected ∧
    (withParams State.reset ({ · with fx29Mode := .source })).params.fx29Mode = .source := by decide

theorem witness_BcdStoresThreeDigits :
    ((State.reset.setI 4093).i.toNat + 3 ≤ 4096 ∧ (State.reset.setI 4093).mem.wf = true ∧
      4092 < (State.reset.setI 4093).dataAddr 0) ∧
    4096 < (State.reset.setI 4094).i.toNat + 3 := by decide

theorem witness_StoreRegistersWritesTheBlock :
    ((State.reset.setI 4095).i.toNat + (0 : Reg).val < 4096 ∧ (State.reset.setI 4095).mem.wf = true) ∧
    4096 ≤ (State.reset.setI 4095).i.toNat + (1 : Reg).val ∧
    ((State.reset.setI 4080).i.toNat + (15 : Reg).val < 4096 ∧ (15 : Reg) ≤ 15) := by decide

theorem witness_LoadRegistersReadsTheBlock :
    ((State.reset.setI 4095).i.toNat + (0 : Reg).val < 4096 ∧ (0 : Reg) ≤ 0 ∧ (0 : Reg) < 15) ∧
    4096 ≤ (State.reset.setI 4095).i.toNat + (1 : Reg).val := by decide

theorem witness_BlockRoundTripAndWhatAdvancesIndex :
    (∃ t, exec (.ldMemRegs 15) State.reset = .next t) ∧ (∃ t, exec (.ldRegsMem 15) State.reset = .next t) ∧
    (∃ t, exec (.ldBcd 15) State.reset = .next t) ∧ (∃ t, exec (.drw 1 2 15) State.reset = .next t) ∧
    State.reset.mem.wf = true ∧
    (∃ t u : State, exec (.ldMemRegs 2) (regs [(0, 7)]) = .next t ∧ u.mem = t.mem ∧ u.i = (regs [(0, 7)]).i) :=
  ⟨⟨_, rfl⟩, ⟨_, rfl⟩, ⟨_, rfl⟩, ⟨_, rfl⟩, by decide, ⟨_, State.setI (State.setMem State.reset _) 0, rfl, rfl, rfl⟩⟩

theorem witness_StoredCodeIsFetchedAtOnce :
    State.reset.mem.wf = true ∧ 1 ≤ (1 : Reg).val ∧ (State.reset.setI 512).i = (State.reset.setI 512).pc ∧
    ∃ t, exec (.ldMemRegs 1) (State.reset.setI 512) = .next t := ⟨by decide, by decide, by decide, ⟨_, rfl⟩⟩

theorem witness_CanonicalMemoriesThatReadAlikeAreEqual :
    (writeBytes [] 0x300 [1, 2]).wf = true ∧ (writeBytes (writeBytes [] 0x301 [2]) 0x300 [1]).wf = true ∧
    ∀ a, a < 4096 → (writeBytes [] 0x300 [1, 2]).get a = (writeBytes (writeBytes [] 0x301 [2]) 0x300 [1]).get a := by
  refine ⟨by decide, by decide, fun a _ => ?_⟩
  rw [show writeBytes (writeBytes [] 0x301 [2]) 0x300 [1] = writeBytes [] 0x300 [1, 2] from by decide]

/-- A sprite over one lit pixel. -/
def overlit : State :=
  { (putMem State.reset 0x300 [0x80]).setI 0x300 with screen := State.reset.screen.set 0 0x8000000000000000 }

theorem witness_DrawXorsTheSpriteAndDetectsCollision :
    ((0 : Nibble) = 0 ∨ (State.reset.setI 0xFFFF).i.toNat + 0 ≤ 4096) ∧
    ((2 : Nibble) = 0 ∨ (State.reset.setI 4094).i.toNat + (2 : Nibble).toNat ≤ 4096) ∧
    ((1 : Nibble) = 0 ∨ overlit.i.toNat + (1 : Nibble).toNat ≤ 4096) ∧
    (∃ px py, overlit.pixel px py = true ∧ spriteBit overlit 1 2 1 px py = true) ∧
    ¬ ∃ px py, State.reset.pixel px py = true ∧ spriteBit State.reset 1 2 1 px py = true := by
  refine ⟨by decide, by decide, by decide, ⟨0, 0, by decide, by decide⟩, ?_⟩
  rintro ⟨px, py, h, -⟩
  simp [State.pixel, State.reset] at h

theorem witness_DrawingTwiceRestoresTheScreen : ∃ t, exec (.drw 1 2 1) overlit = .next t := ⟨_, rfl⟩

theorem witness_DrawModuliAgreeAboveTheFold :
    defaultParams.drawYModulus = .m32 ∧ ({ defaultParams with drawYModulus := .m64 } : Params).drawYModulus = .m64 ∧
    ((regs [(2, 31)]).reg 2).toNat % 64 < 32 ∧ 32 ≤ ((regs [(2, 32)]).reg 2).toNat % 64 ∧
    ∃ t, exec (.drw 1 2 1) { regs [(2, 32)] with params := { defaultParams with drawYModulus := .m64 } } = .next t :=
  ⟨rfl, rfl, by decide, by decide, ⟨_, rfl⟩⟩

theorem witness_KeyWaitRewindsOrReportsTheLowestKey :
    State.reset.params.fx0aMode = .edge ∧
    (∀ k : Fin 16, (State.reset.prevKeyMask.getLsbD k && !State.reset.keyMask.getLsbD k) = false) ∧
    ((State.reset.setKeys 0x8000 1).prevKeyMask.getLsbD 15 && !(State.reset.setKeys 0x8000 1).keyMask.getLsbD 15) = true ∧
    (∀ j : Fin 15, ((State.reset.setKeys 0x8000 1).prevKeyMask.getLsbD j &&
      !(State.reset.setKeys 0x8000 1).keyMask.getLsbD j) = false) ∧
    (withParams State.reset ({ · with fx0aMode := .source })).params.fx0aMode = .source ∧
    (State.reset.setKeys 0x8000 0x8000).prevKeyMask.toNat ≤ (State.reset.setKeys 0x8000 0x8000).keyMask.toNat ∧
    (State.reset.setKeys 0x8000 1).keyMask.toNat < (State.reset.setKeys 0x8000 1).prevKeyMask.toNat ∧
    ((State.reset.setKeys 0x8000 1).prevKeyMask.getLsbD 0 != (State.reset.setKeys 0x8000 1).keyMask.getLsbD 0) = true := by
  decide

theorem witness_KeyWaitModesAgreeUnlessPressMeetsRelease :
    defaultParams.fx0aMode = .edge ∧ ({ defaultParams with fx0aMode := .source } : Params).fx0aMode = .source ∧
    (State.reset.setKeys 8 0).keyMask &&& ~~~(State.reset.setKeys 8 0).prevKeyMask = 0 := by decide

theorem witness_HandlersWriteOnlyTheirListedElements :
    (∃ t, exec (.ldMemRegs 3) State.reset = .next t) ∧ mayWrite (.ldMemRegs 3) (.reg 3) = false :=
  ⟨⟨_, rfl⟩, by decide⟩

theorem witness_FlagWritersLeaveZeroOrOne :
    (∃ t, exec (.shlReg 15 2) State.reset = .next t) ∧ ∃ t, exec (.drw 1 2 0) (State.reset.setI 0xFFFF) = .next t :=
  ⟨⟨_, rfl⟩, ⟨_, rfl⟩⟩

/-- A machine with a loaded word meets the invariant. -/
theorem witness_StepKeepsTheInvariant : StateInv (at_ 0x1200) ∧ ∃ t, step (at_ 0x1200) = .next t :=
  ⟨⟨by decide, by decide, by decide⟩, ⟨_, rfl⟩⟩

theorem witness_CommandsKeepTheInvariant :
    StateInv (at_ 0x1200) ∧
    (∃ t, commands [.step 0, .tick 1, .presentAck, .reset [0x12, 0x00], .step 7] (at_ 0x1200) = .next t) ∧
    StateInv (State.reset.setPc 4095) ∧
    ∃ t, commands [.step 0, .tick 1, .reset [0x12, 0x00], .step 7] (State.reset.setPc 4095) = .next t :=
  ⟨⟨by decide, by decide, by decide⟩, ⟨_, rfl⟩, ⟨by decide, by decide, by decide⟩, ⟨_, rfl⟩⟩

theorem witness_PrevKeyMaskIsSeenOnlyByKeyWait : ∀ x, Instr.cls ≠ .ldVxKey x := by
  intro x h
  cases h

end Sys2Proof.Tests
end

section
/-! SUPPORT. What each operation on the state leaves unchanged, and from it the frame of every handler (R26). -/

namespace Sys2Proof.Machine

open Sys2Proof.Stmt

/-- Every element outside the set `W` is in `t` as it is in `s`. -/
def ChangesOnly (W : Element → Bool) (s t : State) : Prop := ∀ e, W e = false → SameIn s t e

variable {W : Element → Bool} {s t u : State}

/-! ### One rule per operation on the state -/

theorem ChangesOnly.refl (s : State) : ChangesOnly W s s := by
  intro e _
  cases e <;> simp [SameIn]

theorem ChangesOnly.trans (h₁ : ChangesOnly W s t) (h₂ : ChangesOnly W t u) : ChangesOnly W s u := by
  intro e he
  have h₁ := h₁ e he
  have h₂ := h₂ e he
  cases e <;> simp_all [SameIn]

theorem changesOnly_setMem (hW : W .mem = true) (m : Memory) : ChangesOnly W s (s.setMem m) := by
  intro e he
  cases e <;> simp_all [SameIn]

theorem changesOnly_setV {r : Vector Byte 16} (hW : ∀ x : Reg, W (.reg x) = false → r[x.val] = s.reg x) :
    ChangesOnly W s (s.setV r) := by
  intro e he
  cases e
  case reg x => exact hW x he
  all_goals simp [SameIn]

theorem changesOnly_setReg {x : Reg} (hW : W (.reg x) = true) (b : Byte) : ChangesOnly W s (s.setReg x b) := by
  refine changesOnly_setV fun y hy => State.reg_setReg_of_ne s ?_ b
  rintro rfl
  simp [hW] at hy

theorem changesOnly_writeResultFlag {x : Reg} (hx : W (.reg x) = true) (hf : W (.reg 15) = true) (b : Byte)
    (c : Bool) : ChangesOnly W s (s.writeResultFlag x b c) :=
  (changesOnly_setReg hx b).trans (changesOnly_setReg hf (flagByte c))

theorem changesOnly_setI (hW : W .i = true) (w : Word) : ChangesOnly W s (s.setI w) := by
  intro e he
  cases e <;> simp_all [SameIn]

theorem changesOnly_setPc (hW : W .pc = true) (w : Word) : ChangesOnly W s (s.setPc w) := by
  intro e he
  cases e <;> simp_all [SameIn]

theorem changesOnly_setStack (hW : W .stack = true) (k : Vector Word 16) : ChangesOnly W s (s.setStack k) := by
  intro e he
  cases e <;> simp_all [SameIn]

theorem changesOnly_setSp (hW : W .sp = true) (p : BitVec 4) : ChangesOnly W s (s.setSp p) := by
  intro e he
  cases e <;> simp_all [SameIn]

theorem changesOnly_push (hk : W .stack = true) (hp : W .sp = true) (w : Word) : ChangesOnly W s (s.push w) :=
  (changesOnly_setStack hk _).trans (changesOnly_setSp hp _)

theorem changesOnly_setDt (hW : W .dt = true) (b : Byte) : ChangesOnly W s (s.setDt b) := by
  intro e he
  cases e <;> simp_all [SameIn]

theorem changesOnly_setSt (hW : W .st = true) (b : Byte) : ChangesOnly W s (s.setSt b) := by
  intro e he
  cases e <;> simp_all [SameIn]

theorem changesOnly_setScreen (hW : W .screen = true) (g : Vector Row 32) : ChangesOnly W s (s.setScreen g) := by
  intro e he
  cases e <;> simp_all [SameIn]

theorem changesOnly_setShouldDraw (hW : W .shouldDraw = true) (b : Bool) :
    ChangesOnly W s (s.setShouldDraw b) := by
  intro e he
  cases e <;> simp_all [SameIn]

theorem changesOnly_takeRnd (hW : W .rndInput = true) (s : State) : ChangesOnly W s s.takeRnd := by
  obtain ⟨q, n, h⟩ := takeRnd_eq s
  intro e he
  cases e <;> simp_all [SameIn]

/-- Registers above the last one loaded keep their value (R156). -/
theorem changesOnly_loadRegs {x : Reg} (hW : ∀ r : Reg, r ≤ x → W (.reg r) = true) {bs : List Byte}
    (hbs : bs.length = x.val + 1) : ChangesOnly W s (s.setV (loadRegs s.v 0 bs)) := by
  refine changesOnly_setV fun r hr => ?_
  have hrx : x.val < r.val := lt_of_not_ge fun h => by simp [hW r h] at hr
  have hout : ¬(0 ≤ r.val ∧ r.val < 0 + bs.length) := by omega
  rw [getElem_loadRegs, dif_neg hout]
  rfl

/-! ### The frame of every handler -/

/-- A handler changes no element outside its row's write column (R26). -/
theorem exec_changesOnly {i : Instr} (h : exec i s = .next t) : ChangesOnly (mayWrite i) s t := by
  cases i with
  | cls =>
    cases h
    exact (changesOnly_setScreen rfl _).trans (changesOnly_setShouldDraw rfl _)
  | ret =>
    cases h
    exact (changesOnly_setSp rfl _).trans (changesOnly_setPc rfl _)
  | call nnn =>
    cases h
    exact (changesOnly_push rfl rfl _).trans (changesOnly_setPc rfl _)
  | jp nnn | jpV0 nnn | seImm x nn | sneImm x nn | seReg x y | sneReg x y | skp x | sknp x =>
    cases h
    exact changesOnly_setPc rfl _
  | ldImm x nn | addImm x nn | ldReg x y | ldVxDt x =>
    cases h
    exact changesOnly_setReg (by simp [mayWrite]) _
  | orReg x y | andReg x y | xorReg x y | addReg x y | subReg x y | shrReg x y | subnReg x y | shlReg x y =>
    cases h
    exact changesOnly_writeResultFlag (by simp [mayWrite]) (by simp [mayWrite]) _ _
  | ldI nnn | addI x | ldFont x =>
    cases h
    exact changesOnly_setI rfl _
  | rnd x nn =>
    cases h
    exact (changesOnly_takeRnd rfl s).trans (changesOnly_setReg (by simp [mayWrite]) _)
  | ldVxKey x =>
    cases h
    split
    · exact changesOnly_setPc rfl _
    · exact changesOnly_setReg (by simp [mayWrite]) _
  | ldDtVx x =>
    cases h
    exact changesOnly_setDt rfl _
  | ldStVx x =>
    cases h
    exact changesOnly_setSt rfl _
  | drw x y n =>
    obtain ⟨-, rfl⟩ := withDataRange_next_iff.mp h
    exact ((changesOnly_setScreen rfl _).trans (changesOnly_setReg rfl _)).trans (changesOnly_setShouldDraw rfl _)
  | ldBcd x =>
    obtain ⟨-, rfl⟩ := withDataRange_next_iff.mp h
    exact changesOnly_setMem rfl _
  | ldMemRegs x =>
    obtain ⟨-, rfl⟩ := withDataRange_next_iff.mp h
    exact (changesOnly_setMem rfl _).trans (changesOnly_setI rfl _)
  | ldRegsMem x =>
    obtain ⟨-, rfl⟩ := withDataRange_next_iff.mp h
    have hW (r : Reg) (hr : r ≤ x) : mayWrite (.ldRegsMem x) (.reg r) = true := by simp [mayWrite, hr]
    exact (changesOnly_loadRegs hW (length_readBytes _ _ _)).trans (changesOnly_setI rfl _)

/-- Settles O53: each handler is a chain of the operations above, each on a listed element. -/
theorem handlersWriteOnlyTheirListedElements : Obligations.HandlersWriteOnlyTheirListedElements :=
  fun _ _ _ e h he => exec_changesOnly h e he

end Sys2Proof.Machine
end

section
/-! SUPPORT. The invariant of R27: what a handler, a `Step` and the schedule do to memory, `PC` and the stack. -/

namespace Sys2Proof.Machine

open Sys2Proof.Stmt

variable {s t : State}

/-- The invariant speaks of memory, `PC` and the stack only. -/
theorem StateInv.congr (h : StateInv s) (hmem : t.mem = s.mem) (hpc : t.pc = s.pc) (hstack : t.stack = s.stack) :
    StateInv t where
  memCanonical := hmem ▸ h.memCanonical
  pcBound := hpc ▸ h.pcBound
  stackBound k := by simpa only [State.stackAt, hstack] using h.stackBound k

/-! ### Memory -/

/-- A store whose range check passed keeps the canonical form (R46, R157). -/
theorem wf_writeBytes_dataAddr (h : s.mem.wf = true) {bs : List Byte}
    (hr : bs.length = 0 ∨ s.i.toNat + bs.length ≤ Config.memSize) :
    (writeBytes s.mem (s.dataAddr 0) bs).wf = true := by
  obtain h0 | hle := hr
  · rwa [List.length_eq_zero_iff.mp h0]
  · exact wf_writeBytes h bs hle

theorem exec_keeps_wf {i : Instr} (hs : s.mem.wf = true) (h : exec i s = .next t) : t.mem.wf = true := by
  cases i
  case ldBcd x =>
    obtain ⟨hr, rfl⟩ := withDataRange_next_iff.mp h
    exact wf_writeBytes_dataAddr hs (bs := bcdDigits (s.reg x)) hr
  case ldMemRegs x =>
    obtain ⟨hr, rfl⟩ := withDataRange_next_iff.mp h
    exact wf_writeBytes_dataAddr hs (bs := firstRegs s.v x) (by simpa using hr)
  all_goals exact (exec_changesOnly h .mem (by simp [mayWrite]) : t.mem = s.mem) ▸ hs

/-! ### `PC` -/

theorem toNat_addrWord (a : Addr) : (addrWord a).toNat = a.toNat := by
  simp only [addrWord, BitVec.toNat_setWidth]
  omega

theorem toNat_indexedTarget (s : State) (nnn : Addr) :
    (s.indexedTarget nnn).toNat = (s.reg 0).toNat + nnn.toNat := by
  simp only [State.indexedTarget, zext16, addrWord, BitVec.toNat_add, BitVec.toNat_setWidth]
  omega

theorem skipIf_pc_le (s : State) (c : Bool) : (s.skipIf c).pc.toNat ≤ s.pc.toNat + 2 := by
  cases c
  · exact Nat.le_add_right _ _
  · simp only [State.skipIf, if_true, State.setPc_pc]
    bv_omega

/-- From an advanced `PC` a handler leaves `PC` at most 4350, the greatest target of `BNNN` (R27, R103). -/
theorem exec_pc_le {i : Instr} (hlo : 2 ≤ s.pc.toNat) (hhi : s.pc.toNat ≤ 4096)
    (hstack : ∀ k, (s.stackAt k).toNat ≤ 4096) (h : exec i s = .next t) : t.pc.toNat ≤ 4350 := by
  cases i
  case jp nnn | call nnn =>
    cases h
    have := toNat_addrWord nnn
    simp only [State.setPc_pc]
    omega
  case jpV0 nnn =>
    cases h
    have := toNat_indexedTarget s nnn
    simp only [State.setPc_pc]
    omega
  case ret =>
    cases h
    exact (hstack _).trans (by decide)
  case seImm | sneImm | seReg | sneReg | skp | sknp =>
    cases h
    exact (skipIf_pc_le s _).trans (by omega)
  case ldVxKey x =>
    cases h
    split
    · simp only [State.rewindPc, State.setPc_pc]
      bv_omega
    · exact hhi.trans (by decide)
  all_goals
    have hpc : t.pc = s.pc := exec_changesOnly h .pc (by simp [mayWrite])
    exact hpc ▸ hhi.trans (by decide)

/-! ### The stack -/

/-- What a call pushes is the advanced `PC`; no other handler writes the stack (R102). -/
theorem exec_stackAt_le {i : Instr} (hpc : s.pc.toNat ≤ 4096) (hstack : ∀ k, (s.stackAt k).toNat ≤ 4096)
    (h : exec i s = .next t) (k : BitVec 4) : (t.stackAt k).toNat ≤ 4096 := by
  cases i
  case call nnn =>
    cases h
    rw [State.stackAt_setPc, stackAt_push]
    split
    · exact hpc
    · exact hstack k
  all_goals
    have hk : t.stack = s.stack := exec_changesOnly h .stack (by simp [mayWrite])
    simpa only [State.stackAt, hk] using hstack k

/-! ### The step -/

/-- Only below 4095 is the word fetched an instruction: the sentinel of R81 is none. -/
theorem pc_lt_of_fetchWord_decodes {w : Word} {i : Instr} (hw : fetchWord s = .ok w) (hi : decodeWord w = .ok i) :
    s.pc.toNat < 4095 := by
  have sentinel_illegal : decodeWord 0xFFFF = .error (.illegalOpcode 0xFFFF) := by decide
  obtain ⟨-, hf⟩ | ⟨-, hf⟩ | ⟨hlt, -⟩ := fetchWord_cases s
  · cases hf.symm.trans hw
    cases sentinel_illegal.symm.trans hi
  · cases hf.symm.trans hw
  · exact hlt

theorem stepCommand_keeps_inv (hs : StateInv s) (h : stepCommand s = .next t) : StateInv t := by
  obtain ⟨w, i, hw, hi, h⟩ | ⟨w, e, -, -, rfl⟩ := stepCommand_next_cases h
  · have hlt := pc_lt_of_fetchWord_decodes hw hi
    have hadv : s.advancePc.pc.toNat = s.pc.toNat + 2 := by
      simp only [State.advancePc, State.setPc_pc]
      bv_omega
    exact {
      memCanonical := exec_keeps_wf (s := s.advancePc) hs.memCanonical h
      pcBound := exec_pc_le (by omega) (by omega) (s := s.advancePc) hs.stackBound h
      stackBound := exec_stackAt_le (by omega) (s := s.advancePc) hs.stackBound h }
  · exact { hs with pcBound := by simp }

theorem afterStep_keeps_inv (hs : StateInv s) : StateInv (afterStep s) := by
  obtain ⟨hmem, -, -, hpc, hstack, -⟩ := afterStep_frame s
  exact hs.congr hmem hpc hstack

/-- Settles O55: a `Step` keeps the invariant, by its handler's bounds on memory, `PC` and the stack, and the schedule
touches none of the three. -/
theorem stepKeepsTheInvariant : Obligations.StepKeepsTheInvariant := by
  intro s t hs h
  obtain ⟨u, hu, rfl⟩ := step_next_iff.mp h
  exact afterStep_keeps_inv (stepCommand_keeps_inv hs hu)

end Sys2Proof.Machine
end

section
/-! SUPPORT. What `Reset` leaves in every element (R25), and what every command keeps through a session (R216, R236). -/

namespace Sys2Proof.Machine

open Sys2Proof.Stmt

variable {s t : State}

/-! ### Memory after `Reset` -/

theorem background_of_lt_font {a : Nat} (h : a < 0x50) : background a = 0 := if_neg (Nat.not_le.mpr h)

theorem background_of_ge_font_end {a : Nat} (h : 0xA0 ≤ a) : background a = 0 := by
  have hlen : defaultFontBytes.length ≤ a - Config.fontOffset := Nat.le_sub_of_add_le h
  simp only [background, List.getD_eq_default _ _ hlen, ite_self]

/-- The memory of R25: `FONT` at 0x50, then the ROM at 512. -/
def resetMem (p : Params) (rom : List Byte) : Memory :=
  writeBytes (writeBytes State.reset.mem Config.fontOffset p.font.toList) Config.romBase rom

theorem wf_fontMem (p : Params) : (writeBytes State.reset.mem Config.fontOffset p.font.toList).wf = true :=
  wf_writeBytes wf_reset_mem _ (by simp [Config.fontOffset, Config.memSize])

theorem wf_resetMem (p : Params) {rom : List Byte} (h : Fits rom) : (resetMem p rom).wf = true :=
  wf_writeBytes (wf_fontMem p) rom (Nat.add_le_add_left h 512)

theorem get_resetMem_rom (p : Params) {rom : List Byte} (h : Fits rom) (k : Nat) (hk : k < rom.length) :
    (resetMem p rom).get (512 + k) = rom[k] :=
  get_writeBytes_inside (wf_fontMem p) rom (Nat.add_le_add_left h 512) k hk

theorem get_resetMem_font (p : Params) (rom : List Byte) (k : Nat) (hk : k < 80) :
    (resetMem p rom).get (0x50 + k) = p.font[k] := by
  have hbelow : 0x50 + k < Config.romBase := by simp only [Config.romBase]; omega
  rw [resetMem, get_writeBytes_of_outside _ _ _ _ (.inl hbelow),
    get_writeBytes_inside wf_reset_mem _ (by simp [Config.fontOffset, Config.memSize]) k (by simpa using hk)]
  simp

/-- Outside the font and the ROM memory is the background of the empty listing. -/
theorem get_resetMem_elsewhere (p : Params) (rom : List Byte) {a : Nat} (hfont : a < 0x50 ∨ 0xA0 ≤ a)
    (hrom : a < 512 ∨ 512 + rom.length ≤ a) : (resetMem p rom).get a = 0 := by
  rw [resetMem, get_writeBytes_of_outside _ _ _ _ hrom, get_writeBytes_of_outside _ _ _ _ (by simpa using hfont)]
  exact hfont.elim background_of_lt_font background_of_ge_font_end

/-! ### The state after `Reset` -/

@[simp] theorem reg_reset (x : Reg) : State.reset.reg x = 0 := by
  simp [State.reg, State.reset]

@[simp] theorem stackAt_reset (k : BitVec 4) : State.reset.stackAt k = 0 := by
  simp [State.stackAt, State.reset]

@[simp] theorem pixel_reset (x : Fin 64) (y : Fin 32) : State.reset.pixel x y = false := by
  simp [State.pixel, State.reset]

/-- The state of R25 for given parameters and ROM. -/
def resetState (p : Params) (rom : List Byte) : State := { State.reset with params := p, mem := resetMem p rom }

theorem romFits_iff {rom : List Byte} : romFits rom = true ↔ Fits rom := by
  rw [romFits, decide_eq_true_eq, Fits]

theorem resetWith_of_fits (p : Params) {rom : List Byte} (h : Fits rom) :
    resetWith p rom = .next (resetState p rom) :=
  if_pos (romFits_iff.mpr h)

theorem resetWith_next {p : Params} {rom : List Byte} (h : resetWith p rom = .next t) :
    Fits rom ∧ t = resetState p rom := by
  unfold resetWith at h
  split at h
  · rename_i hf
    exact ⟨romFits_iff.mp hf, (Host.Outcome.next.inj h).symm⟩
  · cases h

theorem hasResetValues_resetState (p : Params) {rom : List Byte} (h : Fits rom) :
    HasResetValues p rom (resetState p rom) := by
  refine ⟨rfl, fun a ha => ?_, get_resetMem_font p rom, fun a h1 h2 => ?_, get_resetMem_rom p h, fun a h1 _ => ?_,
    reg_reset, rfl, rfl, stackAt_reset, rfl, rfl, rfl, rfl, rfl, pixel_reset, rfl⟩
  · exact get_resetMem_elsewhere p rom (.inl ha) (.inl (by omega))
  · exact get_resetMem_elsewhere p rom (.inr h1) (.inl h2)
  · exact get_resetMem_elsewhere p rom (.inr (by omega)) (.inr h1)

theorem reset_inv : StateInv State.reset where
  memCanonical := wf_reset_mem
  pcBound := by decide
  stackBound k := by simp

theorem resetState_inv (p : Params) {rom : List Byte} (h : Fits rom) : StateInv (resetState p rom) :=
  { reset_inv with memCanonical := wf_resetMem p h }

/-- The command `Reset` is `Reset` under the session's parameters; the inputs to come stay the host's (R236). -/
theorem resetCommand_next_iff {rom : List Byte} :
    resetCommand rom s = .next t ↔ Fits rom ∧
      t = ((resetState s.params rom).setRnd s.rndQueue s.rndDraws).setFrameIn s.frameQueue s.frameDraws := by
  constructor
  · intro h
    unfold resetCommand at h
    split at h
    · rename_i u hu
      obtain ⟨hf, rfl⟩ := resetWith_next hu
      exact ⟨hf, (Host.Outcome.next.inj h).symm⟩
    · rename_i hne
      exact absurd h (hne t)
  · rintro ⟨hf, rfl⟩
    rw [resetCommand, resetWith_of_fits s.params hf]

theorem command_reset_values (s : State) {rom : List Byte} (h : Fits rom) :
    ∃ t, command (.reset rom) s = .next t ∧ HasResetValues s.params rom t :=
  ⟨_, resetCommand_next_iff.mpr ⟨h, rfl⟩, hasResetValues_resetState s.params h⟩

/-! ### What every command keeps -/

/-- `Step(rnd)` is a `Step` but for the model's own random input. -/
theorem stepWith_next {rnd : Byte} (h : stepWith rnd s = .next t) :
    ∃ u, stepCommand (s.setRnd (rnd :: s.rndQueue) s.rndDraws) = .next u ∧
      t = u.setRnd s.rndQueue s.rndDraws := by
  unfold stepWith at h
  split at h
  · rename_i u hu
    exact ⟨u, hu, (Host.Outcome.next.inj h).symm⟩
  · rename_i hne
    exact absurd h (hne t)

theorem stepCommand_keeps_params (h : stepCommand s = .next t) : t.params = s.params := by
  obtain ⟨w, i, -, -, h⟩ | ⟨w, e, -, -, rfl⟩ := stepCommand_next_cases h
  · exact exec_changesOnly h .params (by cases i <;> simp [mayWrite])
  · rfl

/-- No command changes the parameters (log entry 2). -/
theorem command_keeps_params {c : Command} (h : command c s = .next t) : t.params = s.params := by
  cases c with
  | reset rom =>
    obtain ⟨-, rfl⟩ := resetCommand_next_iff.mp h
    rfl
  | step rnd =>
    obtain ⟨u, hu, rfl⟩ := stepWith_next h
    have hp := stepCommand_keeps_params hu
    exact hp
  | tick keys | presentAck =>
    cases h
    rfl

theorem command_keeps_inv {c : Command} (hs : StateInv s) (h : command c s = .next t) : StateInv t := by
  cases c with
  | reset rom =>
    obtain ⟨hf, rfl⟩ := resetCommand_next_iff.mp h
    exact (resetState_inv s.params hf).congr rfl rfl rfl
  | step rnd =>
    obtain ⟨u, hu, rfl⟩ := stepWith_next h
    have hin : StateInv (s.setRnd (rnd :: s.rndQueue) s.rndDraws) := hs.congr rfl rfl rfl
    exact (stepCommand_keeps_inv hin hu).congr rfl rfl rfl
  | tick keys | presentAck =>
    cases h
    exact hs.congr rfl rfl rfl

/-! ### Sessions -/

variable {P : State → Prop}

/-- A fault or a refusal leaves the last state as it was (R216, R251). -/
theorem Session.last_ofOutcome_of_next {o : Outcome} (hs : P s) (ho : ∀ t, o = .next t → P t) :
    P (Session.ofOutcome s o).last := by
  cases o with
  | next t => exact ho t rfl
  | fault f => exact hs
  | refused r => exact hs

theorem Session.last_issue_of_command_keeps (hP : ∀ {c s t}, P s → command c s = .next t → P t) (c : Command)
    {x : Session} (hx : P x.last) : P (x.issue c).last := by
  cases x with
  | live s =>
    rw [Session.issue_live]
    exact Session.last_ofOutcome_of_next hx fun t => hP hx
  | faulted _ last | refused _ last =>
    cases c with
    | reset rom => exact Session.last_ofOutcome_of_next hx fun t => hP (c := .reset rom) hx
    | step rnd => exact hx
    | tick keys => exact hx
    | presentAck => exact hx

/-- A property every command keeps holds of the last state of a session, stopped or not. -/
theorem Session.last_issueAll_of_command_keeps (hP : ∀ {c s t}, P s → command c s = .next t → P t)
    (cs : List Command) {x : Session} (hx : P x.last) : P (Session.issueAll cs x).last := by
  induction cs generalizing x with
  | nil => exact hx
  | cons c cs ih => exact ih (Session.last_issue_of_command_keeps hP c hx)

theorem Session.last_of_outcome_next {x : Session} (h : x.outcome = .next t) : x.last = t := by
  cases x with
  | live s => exact Host.Outcome.next.inj h
  | faulted f last => cases h
  | refused r last => cases h

/-! ### The obligations -/

/-- Settles O1: `Reset` gives one state for given parameters and ROM, and every session keeps its parameters. -/
theorem resetLeavesTheListedValues : Obligations.ResetLeavesTheListedValues := by
  intro rom hf
  refine ⟨fun p => ⟨_, resetWith_of_fits p hf, hasResetValues_resetState p hf⟩,
    fun s => command_reset_values s hf, fun cs s => ?_⟩
  have hp : (Session.issueAll cs (.live s)).last.params = s.params :=
    Session.last_issueAll_of_command_keeps (P := (·.params = s.params))
      (fun hs h => (command_keeps_params h).trans hs) cs rfl
  rw [commands_concat_reset, ← hp]
  exact command_reset_values _ hf

/-- Settles O57: each command keeps the invariant, and a stopped session keeps its last state's. -/
theorem commandsKeepTheInvariant : Obligations.CommandsKeepTheInvariant := by
  intro cs s t hs h
  rw [← Session.last_of_outcome_next h]
  exact Session.last_issueAll_of_command_keeps command_keeps_inv cs (x := .live s) hs

/-- Settles O3: the default font is what the empty listing reads as, so nothing is listed. -/
theorem resetStateIsTheEmptyRomReset : Obligations.ResetStateIsTheEmptyRomReset := by
  have hmem : resetMem defaultParams [] = State.reset.mem := by decide
  rw [Obligations.ResetStateIsTheEmptyRomReset, resetWith_of_fits _ (Nat.zero_le _), resetState, hmem]
  rfl

/-- Settles O56: nothing is listed in memory, `PC` is 512 and the stack is zero. -/
theorem resetStateSatisfiesTheInvariant : Obligations.ResetStateSatisfiesTheInvariant := reset_inv

end Sys2Proof.Machine
end

section
/-! SUPPORT. The canonical listing determines memory (R22, log entry 1), and the flag is a full byte 0 or 1 (R12). -/

namespace Sys2Proof.Machine

open Sys2Proof.Stmt

/-! ### The canonical listing -/

theorem Memory.wfFrom_cons_iff {lo k : Nat} {b : Byte} {m : Memory} :
    Memory.wfFrom lo ((k, b) :: m) = true ↔
      lo ≤ k ∧ k < Config.memSize ∧ b ≠ background k ∧ m.wfFrom (k + 1) = true := by
  simp [Memory.wfFrom, and_assoc]

@[simp] theorem Memory.get_cons_self (k : Nat) (b : Byte) (m : Memory) : Memory.get ((k, b) :: m) k = b := by
  simp [Memory.get]

theorem Memory.get_cons_of_ne {k a : Nat} (h : a ≠ k) (b : Byte) (m : Memory) :
    Memory.get ((k, b) :: m) a = m.get a := by
  simp [Memory.get, h]

/-- A canonical memory that reads like the background everywhere lists nothing. -/
theorem Memory.eq_nil_of_get_eq_background {m : Memory} {lo : Nat} (h : m.wfFrom lo = true)
    (hget : ∀ a, a < Config.memSize → m.get a = background a) : m = [] := by
  cases m with
  | nil => rfl
  | cons c m =>
    obtain ⟨k, b⟩ := c
    obtain ⟨-, hk, hb, -⟩ := Memory.wfFrom_cons_iff.mp h
    exact absurd (by simpa using hget k hk) hb

/-- The first listed address of one memory lies at or above that of another that reads alike there: below its own first
address a canonical memory reads as the background, and no listed byte does. -/
theorem Memory.first_address_le {m m' : Memory} {lo lo' k k' : Nat} {b b' : Byte}
    (h : Memory.wfFrom lo ((k, b) :: m) = true) (h' : Memory.wfFrom lo' ((k', b') :: m') = true)
    (hget : Memory.get ((k, b) :: m) k = Memory.get ((k', b') :: m') k) : k' ≤ k := by
  obtain ⟨-, -, hb, -⟩ := Memory.wfFrom_cons_iff.mp h
  have hfrom : Memory.wfFrom k' ((k', b') :: m') = true :=
    Memory.wfFrom_cons_iff.mpr ⟨le_rfl, (Memory.wfFrom_cons_iff.mp h').2⟩
  by_contra hlt
  rw [Memory.get_cons_self, Memory.get_eq_background_of_wfFrom hfrom (Nat.not_le.mp hlt)] at hget
  exact hb hget

/-- Canonical memories that read alike are the same listing. -/
theorem Memory.eq_of_get_eq {m m' : Memory} {lo lo' : Nat} (h : m.wfFrom lo = true) (h' : m'.wfFrom lo' = true)
    (hget : ∀ a, a < Config.memSize → m.get a = m'.get a) : m = m' := by
  induction m generalizing lo m' lo' with
  | nil => exact (Memory.eq_nil_of_get_eq_background h' fun a ha => (hget a ha).symm).symm
  | cons c m ih =>
    obtain ⟨k, b⟩ := c
    obtain ⟨-, hk, -, hm⟩ := Memory.wfFrom_cons_iff.mp h
    cases m' with
    | nil => exact Memory.eq_nil_of_get_eq_background h hget
    | cons c' m' =>
      obtain ⟨k', b'⟩ := c'
      obtain ⟨-, hk', -, hm'⟩ := Memory.wfFrom_cons_iff.mp h'
      have hle : k ≤ k' := Memory.first_address_le h' h (hget k' hk').symm
      have hge : k' ≤ k := Memory.first_address_le h h' (hget k hk)
      obtain rfl : k = k' := Nat.le_antisymm hle hge
      have hb : b = b' := by simpa using hget k hk
      have hrest (a : Nat) (ha : a < Config.memSize) : Memory.get m a = Memory.get m' a := by
        obtain hak | hak := Nat.lt_or_ge k a
        · simpa only [Memory.get_cons_of_ne (Nat.ne_of_gt hak)] using hget a ha
        · rw [Memory.get_eq_background_of_wfFrom hm (Nat.lt_succ_of_le hak),
            Memory.get_eq_background_of_wfFrom hm' (Nat.lt_succ_of_le hak)]
      rw [hb, ih hm hm' hrest]

/-- Settles O44, by induction on the first listing. -/
theorem canonicalMemoriesThatReadAlikeAreEqual : Obligations.CanonicalMemoriesThatReadAlikeAreEqual :=
  fun _ _ h h' hget => Memory.eq_of_get_eq h h' hget

/-! ### The flag -/

theorem flagByte_eq_zero_or_one (c : Bool) : flagByte c = 0 ∨ flagByte c = 1 := by
  cases c
  · exact .inl rfl
  · exact .inr rfl

/-- The flag is written last, so it is what `V[15]` holds also when the result went there (R121). -/
theorem vf_writeResultFlag (s : State) (x : Reg) (b : Byte) (c : Bool) :
    (s.writeResultFlag x b c).reg 15 = flagByte c := by
  rw [reg_writeResultFlag]
  rfl

/-- Settles O54: each of the nine leaves a `flagByte` in VF. -/
theorem flagWritersLeaveZeroOrOne : Obligations.FlagWritersLeaveZeroOrOne := by
  intro x y n i s t hi h
  suffices hflag : ∃ c, t.reg 15 = flagByte c by
    obtain ⟨c, hc⟩ := hflag
    exact hc ▸ flagByte_eq_zero_or_one c
  simp only [List.mem_cons, List.not_mem_nil, or_false] at hi
  obtain rfl | rfl | rfl | rfl | rfl | rfl | rfl | rfl | rfl := hi
  pick_goal 9
  · obtain ⟨-, rfl⟩ := withDataRange_next_iff.mp h
    exact ⟨_, State.reg_setReg_self _ vf _⟩
  all_goals
    cases h
    exact ⟨_, vf_writeResultFlag s x _ _⟩

end Sys2Proof.Machine
end

section
/-! SUPPORT. Three fields no handler reads, but `FX0A` for one of them: `shouldDraw`, `ST` and `prevKeyMask` (R24). -/

namespace Sys2Proof.Machine

open Sys2Proof.Stmt

/-- A state with the fields `shouldDraw`, `ST` and `prevKeyMask` changed, each by a function. -/
def State.mapUnseen (s : State) (fd : Bool → Bool) (fs : Byte → Byte) (fk : Word → Word) : State :=
  { s with shouldDraw := fd s.shouldDraw, st := fs s.st, prevKeyMask := fk s.prevKeyMask }

/-! ### Outcomes -/

theorem mapNext_mapNext (f g : State → State) (o : Outcome) : mapNext f (mapNext g o) = mapNext (f ∘ g) o := by
  cases o <;> rfl

/-- The range check reads `I` only, so what it answers moves with the next state. -/
theorem withDataRange_eq_mapNext {f : State → State} {n : Nat} {s s' t t' : State} (hi : s'.i = s.i)
    (ht : t' = f t) : withDataRange n s' t' = mapNext f (withDataRange n s t) := by
  have hr : s'.dataInRange n = s.dataInRange n := by simp only [State.dataInRange, hi]
  unfold withDataRange
  rw [hr, ht]
  split <;> rfl

/-! ### Inputs, field by field -/

theorem takeRnd_eq_setRnd (s : State) :
    s.takeRnd = s.setRnd s.rndQueue.tail (if s.rndQueue.isEmpty then s.rndDraws + 1 else s.rndDraws) := by
  unfold State.takeRnd
  split <;> rename_i hq <;> simp [hq]

theorem takeFrameInput_eq_setFrameIn (s : State) :
    s.takeFrameInput =
      s.setFrameIn s.frameQueue.tail (if s.frameQueue.isEmpty then s.frameDraws + 1 else s.frameDraws) := by
  unfold State.takeFrameInput
  split <;> rename_i hq <;> simp [hq]

/-! ### Handlers and the `Step` command -/

variable (s : State) (fd : Bool → Bool) (fs : Byte → Byte) (fk : Word → Word)

theorem execRnd_mapUnseen (x : Reg) (nn : Byte) :
    execRnd x nn (s.mapUnseen fd fs fk) = mapNext (·.mapUnseen fd fs fk) (execRnd x nn s) := by
  simp only [execRnd, takeRnd_eq_setRnd]
  rfl

theorem execLdVxKey_mapUnseen (x : Reg) :
    execLdVxKey x (s.mapUnseen fd fs id) = mapNext (·.mapUnseen fd fs id) (execLdVxKey x s) :=
  congrArg Host.Outcome.next (apply_ite (State.mapUnseen · fd fs id) (s.keyWaits = true) s.rewindPc
    (s.setReg x s.reportedKey)).symm

/-- A handler runs alike whatever the three fields hold, and carries each to its next state unless it writes it. -/
theorem exec_mapUnseen (i : Instr) (hkey : ∀ x, i = .ldVxKey x → fk = id) :
    exec i (s.mapUnseen fd fs fk) = mapNext (·.mapUnseen
      (if mayWrite i .shouldDraw then id else fd) (if mayWrite i .st then id else fs) fk) (exec i s) := by
  cases i
  case drw | ldBcd | ldMemRegs =>
    exact withDataRange_eq_mapNext rfl rfl
  case ldRegsMem x =>
    have hd : mayWrite (.ldRegsMem x) .shouldDraw = false := by simp [mayWrite]
    have hs : mayWrite (.ldRegsMem x) .st = false := by simp [mayWrite]
    rw [hd, hs]
    exact withDataRange_eq_mapNext rfl rfl
  case rnd x nn => exact execRnd_mapUnseen s fd fs fk x nn
  case ldVxKey x =>
    obtain rfl := hkey x rfl
    exact execLdVxKey_mapUnseen s fd fs x
  all_goals rfl

/-- The `Step` command reads neither `shouldDraw` nor `ST`: it carries each on or overwrites it. -/
theorem stepCommand_mapUnseen :
    ∃ gd gs, stepCommand (s.mapUnseen fd fs id) = mapNext (·.mapUnseen gd gs id) (stepCommand s) ∧
      (fd = id → gd = id) ∧ (fs = id → gs = id) := by
  have hfetch : fetchWord (s.mapUnseen fd fs id) = fetchWord s := rfl
  unfold stepCommand
  rw [hfetch]
  cases fetchWord s with
  | error f => exact ⟨fd, fs, rfl, id, id⟩
  | ok w =>
    unfold runWord
    simp only
    cases decodeWord w with
    | error e => exact ⟨fd, fs, rfl, id, id⟩
    | ok i =>
      refine ⟨_, _, exec_mapUnseen s.advancePc fd fs id i fun _ _ => rfl, ?_, ?_⟩
      · rintro rfl
        exact ite_self id
      · rintro rfl
        exact ite_self id

/-! ### The machine's step -/

theorem step_eq_mapNext (s : State) : step s = mapNext afterStep (stepCommand s) := by
  unfold step
  cases stepCommand s <;> rfl

theorem clearDraw_afterStep (t : State) :
    { afterStep (t.mapUnseen fd id id) with shouldDraw := false } = { afterStep t with shouldDraw := false } := by
  have hslot : (t.mapUnseen fd id id).slot = t.slot := rfl
  simp only [afterStep, endFrame, takeFrameInput_eq_setFrameIn, hslot]
  split <;> rfl

theorem clearSt_afterStep (t : State) :
    { afterStep (t.mapUnseen id fs id) with st := 0 } = { afterStep t with st := 0 } := by
  have hslot : (t.mapUnseen id fs id).slot = t.slot := rfl
  simp only [afterStep, endFrame, takeFrameInput_eq_setFrameIn, hslot]
  split <;> rfl

/-! ### The obligations -/

/-- Settles O58: the `Step` carries `shouldDraw` on or overwrites it, and so does the schedule. -/
theorem shouldDrawNeverInfluencesAStep : Obligations.ShouldDrawNeverInfluencesAStep := by
  intro s b
  obtain ⟨gd, gs, h, -, hgs⟩ := stepCommand_mapUnseen s (fun _ => b) id
  obtain rfl := hgs rfl
  have hs : { s with shouldDraw := b } = s.mapUnseen (fun _ => b) id id := rfl
  simp only [hs, step_eq_mapNext, h, mapNext_mapNext]
  exact congrArg (mapNext · (stepCommand s)) (funext (clearDraw_afterStep gd))

/-- Settles O59: the `Step` carries `ST` on or overwrites it, and a `Tick` moves it by itself alone. -/
theorem soundTimerNeverInfluencesAStep : Obligations.SoundTimerNeverInfluencesAStep := by
  intro s b
  obtain ⟨gd, gs, h, hgd, -⟩ := stepCommand_mapUnseen s id (fun _ => b)
  obtain rfl := hgd rfl
  have hs : { s with st := b } = s.mapUnseen id (fun _ => b) id := rfl
  simp only [hs, step_eq_mapNext, h, mapNext_mapNext]
  exact congrArg (mapNext · (stepCommand s)) (funext (clearSt_afterStep gs))

/-- Settles O60: a handler other than `FX0A`'s carries `prevKeyMask` to its next state unread. -/
theorem prevKeyMaskIsSeenOnlyByKeyWait : Obligations.PrevKeyMaskIsSeenOnlyByKeyWait := by
  intro i s m hi
  have h := exec_mapUnseen s id id (fun _ => m) i fun x hx => absurd hx (hi x)
  simp only [ite_self] at h
  exact h

end Sys2Proof.Machine
end

section
/-! SUPPORT. The decoder reads from an encoded word the fields the encoder placed there (R61, R62, R64). -/

namespace Sys2Proof

/-! ### The fields of each format of R62 -/

section Fields

variable (m n : Nibble) (x y : Reg) (nnn : Addr) (nn : Byte)

@[simp] theorem fieldMajor_addr : fieldMajor (m ++ nnn) = m := BitVec.extractLsb'_append_eq_left

@[simp] theorem fieldNNN_addr : fieldNNN (m ++ nnn) = nnn := BitVec.extractLsb'_append_eq_right

@[simp] theorem fieldMajor_regByte : fieldMajor (m ++ regBits x ++ nn) = m := by
  rw [fieldMajor, BitVec.extractLsb'_append_eq_of_le (by decide)]
  exact BitVec.extractLsb'_append_eq_left

@[simp] theorem fieldX_regByte : fieldX (m ++ regBits x ++ nn) = x := by
  rw [fieldX, BitVec.extractLsb'_append_eq_of_le (by decide)]
  exact congrArg BitVec.toFin (BitVec.extractLsb'_append_eq_right (a := m) (b := regBits x))

@[simp] theorem fieldNN_regByte : fieldNN (m ++ regBits x ++ nn) = nn := BitVec.extractLsb'_append_eq_right

@[simp] theorem fieldMajor_regRegNibble : fieldMajor (m ++ regBits x ++ regBits y ++ n) = m := by
  rw [fieldMajor, BitVec.extractLsb'_append_eq_of_le (by decide), BitVec.extractLsb'_append_eq_of_le (by decide)]
  exact BitVec.extractLsb'_append_eq_left

@[simp] theorem fieldX_regRegNibble : fieldX (m ++ regBits x ++ regBits y ++ n) = x := by
  rw [fieldX, BitVec.extractLsb'_append_eq_of_le (by decide), BitVec.extractLsb'_append_eq_of_le (by decide)]
  exact congrArg BitVec.toFin (BitVec.extractLsb'_append_eq_right (a := m) (b := regBits x))

@[simp] theorem fieldY_regRegNibble : fieldY (m ++ regBits x ++ regBits y ++ n) = y := by
  rw [fieldY, BitVec.extractLsb'_append_eq_of_le (by decide)]
  exact congrArg BitVec.toFin (BitVec.extractLsb'_append_eq_right (a := m ++ regBits x) (b := regBits y))

@[simp] theorem fieldN_regRegNibble : fieldN (m ++ regBits x ++ regBits y ++ n) = n :=
  BitVec.extractLsb'_append_eq_right

end Fields

/-- The decoder reads an instruction back from its word: the fixed nibbles select it, the fields are its operands. -/
theorem decodeWord_encode (i : Instr) : decodeWord (encode i) = .ok i := by
  cases i with
  | cls | ret => rfl
  | jp | call | ldI | jpV0 => simp [encode, decodeWord]
  | seImm | sneImm | ldImm | addImm | rnd => simp [encode, decodeWord]
  | seReg | sneReg | drw => simp [encode, decodeWord]
  | ldReg | orReg | andReg | xorReg | addReg | subReg | shrReg | subnReg | shlReg =>
    simp [encode, decodeWord, decodeAlu]
  | skp | sknp => simp [encode, decodeWord, decodeKey]
  | ldVxDt | ldVxKey | ldDtVx | ldStVx | addI | ldFont | ldBcd | ldMemRegs | ldRegsMem =>
    simp [encode, decodeWord, decodeMisc]

/-! ### A word and its two bytes (R41, R60) -/

theorem bytesWord_extractLsb' (w : Word) : bytesWord (w.extractLsb' 8 8) (w.extractLsb' 0 8) = w := by
  refine (BitVec.extractLsb'_append_extractLsb'_eq_extractLsb' rfl).trans ?_
  exact BitVec.extractLsb'_eq_self

/-- A word written out as a number under its width is itself. -/
theorem ofNat_toNat_mod (w : Word) : BitVec.ofNat 16 (w.toNat % 2 ^ 16) = w := by
  rw [Nat.mod_eq_of_lt w.isLt, BitVec.ofNat_toNat, BitVec.setWidth_eq]

/-- The table-word decoder is the word decoder with the reason of a failure dropped. -/
theorem decodeTableWord_toNat (w : Word) : decodeTableWord 16 w.toNat = (decodeWord w).toOption := by
  rw [decodeTableWord, ofNat_toNat_mod, wordBytes, decodeBytes, bytesWord_extractLsb']
  cases decodeWord w <;> rfl

end Sys2Proof
end

section
/-! SUPPORT. Memory between store, fetch and data access: a stored word is what the next fetch reads (R41, R51), and a
handler stops exactly when its range check does (R46). -/

namespace Sys2Proof.Machine

open Sys2Proof.Stmt

variable {s t : State}

/-! ### Fetch after a store -/

theorem fetchWord_of_pc_lt (h : s.pc.toNat < 4095) :
    fetchWord s = .ok (bytesWord (s.mem.get s.pc.toNat) (s.mem.get (s.pc.toNat + 1))) := by
  obtain ⟨hge, -⟩ | ⟨heq, -⟩ | ⟨-, hw⟩ := fetchWord_cases s
  · omega
  · omega
  · exact hw

/-- Bytes stored from `PC` upward: the next fetch reads the first two, high byte first. -/
theorem fetchWord_of_writeBytes (hm : s.mem.wf = true) {bs : List Byte} (hlen : 1 < bs.length)
    (hle : s.pc.toNat + bs.length ≤ Config.memSize) (hpc : t.pc = s.pc)
    (hmem : t.mem = writeBytes s.mem s.pc.toNat bs) : fetchWord t = .ok (bytesWord bs[0] bs[1]) := by
  have hhi : t.mem.get s.pc.toNat = bs[0] := hmem ▸ get_writeBytes_inside hm bs hle 0 (by omega)
  have hlo : t.mem.get (s.pc.toNat + 1) = bs[1] := hmem ▸ get_writeBytes_inside hm bs hle 1 hlen
  have hlt : s.pc.toNat < 4095 := by
    simp only [Config.memSize] at hle
    omega
  rw [fetchWord_of_pc_lt (hpc ▸ hlt), hpc, hhi, hlo]

theorem withFetchWord_toNat (h : s.pc.toNat < 4095) (w : Word) :
    s.withFetchWord 16 w.toNat = s.setMem (writeBytes s.mem s.pc.toNat (wordBytes w)) := by
  simp only [State.withFetchWord, h, if_true, ofNat_toNat_mod]
  rfl

theorem wordBytes_fit (h : s.pc.toNat < 4095) (w : Word) :
    s.pc.toNat + (wordBytes w).length ≤ Config.memSize := by
  simp only [wordBytes, List.length_cons, List.length_nil, Config.memSize]
  omega

theorem fetchWord_withFetchWord (hm : s.mem.wf = true) (h : s.pc.toNat < 4095) (w : Word) :
    fetchWord (s.withFetchWord 16 w.toNat) = .ok w := by
  have hlen : 1 < (wordBytes w).length := Nat.one_lt_two
  rw [withFetchWord_toNat h]
  exact Eq.trans (fetchWord_of_writeBytes hm hlen (wordBytes_fit h w) rfl rfl)
    (congrArg Except.ok (bytesWord_extractLsb' w))

/-- A `Step` on a word that decodes is its handler on the state with `PC` advanced (R80, R84). -/
theorem stepCommand_of_fetchWord {w : Word} {i : Instr} (hw : fetchWord s = .ok w) (hi : decodeWord w = .ok i) :
    stepCommand s = exec i s.advancePc := by
  simp only [stepCommand, hw, runWord, hi]

/-! ### The range check of every handler -/

theorem withDataRange_zero (s t : State) : withDataRange 0 s t = .next t := rfl

/-- Every handler is the range check of its data bytes, and a next state. -/
theorem exec_eq_withDataRange (i : Instr) (s : State) : ∃ t, exec i s = withDataRange (dataBytes i) s t := by
  cases i with
  | drw | ldBcd | ldMemRegs | ldRegsMem => exact ⟨_, rfl⟩
  | _ => exact ⟨_, (withDataRange_zero s _).symm⟩

/-! ### The obligations -/

/-- Settles O10: the two bytes stored are the word, the word is what the next fetch reads, and it decodes back. -/
theorem storedInstructionIsTheOneRun : Obligations.StoredInstructionIsTheOneRun := by
  intro i s hm hpc
  have hdecode : decodeTableWord 16 (encode i).toNat = some i := by
    rw [decodeTableWord_toNat, decodeWord_encode]
    rfl
  have hle := wordBytes_fit hpc (encode i)
  have hstep := stepCommand_of_fetchWord (fetchWord_withFetchWord hm hpc (encode i)) (decodeWord_encode i)
  rw [withFetchWord_toNat hpc] at hstep ⊢
  exact ⟨hdecode, get_writeBytes_inside hm _ hle 0 Nat.zero_lt_two, get_writeBytes_inside hm _ hle 1 Nat.one_lt_two,
    hstep⟩

/-- Settles O17: every handler is its range check, which faults exactly outside memory and never refuses. -/
theorem handlerFaultsExactlyOutsideMemory : Obligations.HandlerFaultsExactlyOutsideMemory := by
  intro i s
  obtain ⟨t, ht⟩ := exec_eq_withDataRange i s
  rw [ht]
  exact ⟨fun f => withDataRange_fault_iff.trans and_comm, fun r => withDataRange_not_refused⟩

/-- Settles O43: the block starts at the `PC` that the next fetch reads, and its first two bytes are `V[0]` and `V[1]`. -/
theorem storedCodeIsFetchedAtOnce : Obligations.StoredCodeIsFetchedAtOnce := by
  intro x s t hm hx hi h
  obtain ⟨hr, rfl⟩ := withDataRange_next_iff.mp h
  have hlen : 1 < (firstRegs s.v x).length := by
    rw [length_firstRegs]
    omega
  have hle : s.pc.toNat + (firstRegs s.v x).length ≤ Config.memSize := by
    rw [length_firstRegs, ← hi]
    exact hr.resolve_left (Nat.succ_ne_zero _)
  have hmem : writeBytes s.mem (s.dataAddr 0) (firstRegs s.v x) = writeBytes s.mem s.pc.toNat (firstRegs s.v x) := by
    rw [← hi]
    rfl
  have hv0 : (firstRegs s.v x)[0] = s.reg 0 := getElem_firstRegs s.v x 0 _
  have hv1 : (firstRegs s.v x)[1] = s.reg 1 := getElem_firstRegs s.v x 1 hlen
  rw [← hv0, ← hv1]
  exact fetchWord_of_writeBytes hm hlen hle rfl hmem

end Sys2Proof.Machine
end

section
/-! SUPPORT. The decoder, the encoder, the dispatch table and the map by major opcode agree (R61 to R68). -/

namespace Sys2Proof

variable {w : Word} {i : Instr}

/-! ### A word is its fields put together (R61, R62) -/

section Formats

variable {m n : Nibble} {nn : Byte}

theorem append_fieldNNN (hm : fieldMajor w = m) : m ++ fieldNNN w = w := by
  subst hm
  exact (BitVec.extractLsb'_append_extractLsb'_eq_extractLsb' rfl).trans BitVec.extractLsb'_eq_self

theorem append_fieldX (hm : fieldMajor w = m) : m ++ regBits (fieldX w) = w.extractLsb' 8 8 := by
  subst hm
  exact BitVec.extractLsb'_append_extractLsb'_eq_extractLsb' rfl

theorem append_fieldX_fieldNN (hm : fieldMajor w = m) (hnn : fieldNN w = nn) :
    m ++ regBits (fieldX w) ++ nn = w := by
  subst hnn
  rw [append_fieldX hm]
  exact bytesWord_extractLsb' w

theorem append_fieldX_fieldY_fieldN (hm : fieldMajor w = m) (hn : fieldN w = n) :
    m ++ regBits (fieldX w) ++ regBits (fieldY w) ++ n = w := by
  subst hn
  have hhi : w.extractLsb' 8 8 ++ regBits (fieldY w) = w.extractLsb' 4 12 :=
    BitVec.extractLsb'_append_extractLsb'_eq_extractLsb' rfl
  rw [append_fieldX hm, hhi]
  exact (BitVec.extractLsb'_append_extractLsb'_eq_extractLsb' rfl).trans BitVec.extractLsb'_eq_self

end Formats

/-! ### The legal words (R67) in the decoder's fields -/

theorem legalWord_major0 (hm : fieldMajor w = 0x0#4) : legalWord w = true ↔ w = 0x00E0 ∨ w = 0x00EE := by
  rw [fieldMajor] at hm
  simp [legalWord, hm]

theorem legalWord_major5_or_major9 (hm : fieldMajor w = 0x5#4 ∨ fieldMajor w = 0x9#4) :
    legalWord w = true ↔ fieldN w = 0 := by
  rw [← BitVec.toNat_inj]
  obtain hm | hm := hm <;> rw [fieldMajor] at hm <;> simp [legalWord, hm, fieldN]

theorem legalWord_major8 (hm : fieldMajor w = 0x8#4) :
    legalWord w = true ↔ (fieldN w).toNat ≤ 7 ∨ (fieldN w).toNat = 14 := by
  rw [fieldMajor] at hm
  simp [legalWord, hm, fieldN]

theorem legalWord_majorE (hm : fieldMajor w = 0xE#4) :
    legalWord w = true ↔ fieldNN w = 0x9E ∨ fieldNN w = 0xA1 := by
  rw [fieldMajor] at hm
  simp [legalWord, hm, fieldNN, BitVec.toNat_eq]

theorem legalWord_majorF (hm : fieldMajor w = 0xF#4) : legalWord w = true ↔
    fieldNN w ∈ [0x07, 0x0A, 0x15, 0x18, 0x1E, 0x29, 0x33, 0x55, 0x65] := by
  rw [fieldMajor] at hm
  simp [legalWord, hm, fieldNN, BitVec.toNat_eq]

/-- Under every other major opcode all words are legal. -/
theorem legalWord_of_fieldMajor (hm : (fieldMajor w).toNat ∉ [0, 5, 8, 9, 14, 15]) : legalWord w = true := by
  unfold legalWord
  split <;> simp_all [fieldMajor]

theorem legalWord_encode (i : Instr) : legalWord (encode i) = true := by
  cases i with
  | cls | ret => rfl
  | seReg | sneReg => simp [encode, legalWord_major5_or_major9]
  | ldReg | orReg | andReg | xorReg | addReg | subReg | shrReg | subnReg | shlReg => simp [encode, legalWord_major8]
  | skp | sknp => simp [encode, legalWord_majorE]
  | ldVxDt | ldVxKey | ldDtVx | ldStVx | addI | ldFont | ldBcd | ldMemRegs | ldRegsMem =>
    simp [encode, legalWord_majorF]
  | jp | call | ldI | jpV0 | seImm | sneImm | ldImm | addImm | rnd | drw =>
    exact legalWord_of_fieldMajor (by simp [encode])

/-! ### What the decoder can answer, said once -/

/-- The answers a word admits: an instruction whose word it is, or the error that names it when it is illegal (R68). -/
def Admits (w : Word) : Except DecodeError Instr → Prop
  | .ok i => encode i = w
  | .error e => e = .illegalOpcode w ∧ legalWord w = false

theorem admits_illegal (h : ¬ legalWord w = true) : Admits w (.error (.illegalOpcode w)) :=
  ⟨rfl, Bool.eq_false_of_not_eq_true h⟩

theorem admits_ite {p : Prop} [Decidable p] {r : Except DecodeError Instr}
    (hok : p → encode i = w) (hr : ¬ p → Admits w r) : Admits w (if p then .ok i else r) := by
  split
  · exact hok ‹p›
  · exact hr ‹¬ p›

theorem decodeZ_admitted (hm : fieldMajor w = 0x0#4) : Admits w (decodeZ w) := by
  refine admits_ite Eq.symm fun hcls => admits_ite Eq.symm fun hret => admits_illegal ?_
  rw [legalWord_major0 hm]
  exact not_or_intro hcls hret

theorem decodeAlu_admitted (hm : fieldMajor w = 0x8#4) : Admits w (decodeAlu w) := by
  unfold decodeAlu
  split
  case h_10 =>
    refine admits_illegal ?_
    rw [legalWord_major8 hm]
    simp only [imp_false] at *
    omega
  all_goals exact append_fieldX_fieldY_fieldN hm (BitVec.eq_of_toNat_eq ‹_›)

theorem decodeKey_admitted (hm : fieldMajor w = 0xE#4) : Admits w (decodeKey w) := by
  refine admits_ite (append_fieldX_fieldNN hm) fun hskp =>
    admits_ite (append_fieldX_fieldNN hm) fun hsknp => admits_illegal ?_
  rw [legalWord_majorE hm]
  exact not_or_intro hskp hsknp

theorem decodeMisc_admitted (hm : fieldMajor w = 0xF#4) : Admits w (decodeMisc w) := by
  iterate 9 refine admits_ite (append_fieldX_fieldNN hm) fun _ => ?_
  refine admits_illegal ?_
  rw [legalWord_majorF hm]
  simp only [List.mem_cons, List.not_mem_nil, not_or, not_false_eq_true, and_true]
  exact ⟨‹_›, ‹_›, ‹_›, ‹_›, ‹_›, ‹_›, ‹_›, ‹_›, ‹_›⟩

/-- The arms of major opcodes 5 and 9: the low nibble must be 0. -/
theorem fieldN_arm_admitted (hm : fieldMajor w = 0x5#4 ∨ fieldMajor w = 0x9#4) (hi : fieldN w = 0 → encode i = w) :
    Admits w (if fieldN w = 0 then .ok i else .error (.illegalOpcode w)) :=
  admits_ite hi fun hn => admits_illegal (mt (legalWord_major5_or_major9 hm).mp hn)

theorem decodeWord_admitted (w : Word) : Admits w (decodeWord w) := by
  have hm {m : Nibble} (h : (fieldMajor w).toNat = m.toNat) : fieldMajor w = m := BitVec.eq_of_toNat_eq h
  unfold decodeWord
  split
  case h_1 h => exact decodeZ_admitted (hm h)
  case h_2 h | h_3 h | h_11 h | h_12 h => exact append_fieldNNN (hm h)
  case h_4 h | h_5 h | h_7 h | h_8 h | h_13 h => exact append_fieldX_fieldNN (hm h) rfl
  case h_6 h => exact fieldN_arm_admitted (.inl (hm h)) (append_fieldX_fieldY_fieldN (hm h))
  case h_9 h => exact decodeAlu_admitted (hm h)
  case h_10 h => exact fieldN_arm_admitted (.inr (hm h)) (append_fieldX_fieldY_fieldN (hm h))
  case h_14 h => exact append_fieldX_fieldY_fieldN (hm h) rfl
  case h_15 h => exact decodeKey_admitted (hm h)
  case h_16 =>
    have hlt := (fieldMajor w).isLt
    have h : (fieldMajor w).toNat = 15 := by
      simp only [imp_false] at *
      omega
    exact decodeMisc_admitted (hm h)

theorem encode_of_decodeWord (h : decodeWord w = .ok i) : encode i = w := by
  have hw := decodeWord_admitted w
  rw [h] at hw
  exact hw

theorem decodeWord_ok_or_illegal (w : Word) :
    (∃ i, decodeWord w = .ok i) ∨ decodeWord w = .error (.illegalOpcode w) ∧ legalWord w = false := by
  have hw := decodeWord_admitted w
  cases hd : decodeWord w with
  | ok i => exact .inl ⟨i, rfl⟩
  | error e =>
    rw [hd] at hw
    obtain ⟨rfl, hl⟩ := hw
    exact .inr ⟨rfl, hl⟩

/-! ### The dispatch table (R64, R66) -/

theorem encode_and_mask (i : Instr) : encode i &&& (rowOf i).mask = (rowOf i).value := by
  cases i with
  | cls | ret => rfl
  | jp | call | ldI | jpV0 => exact Laws.EncodeInRow.formatA _ _
  | seImm | sneImm | ldImm | addImm | rnd => exact Laws.EncodeInRow.formatXI _ _ _
  | seReg | sneReg | ldReg | orReg | andReg | xorReg | addReg | subReg | shrReg | subnReg | shlReg =>
    exact Laws.EncodeInRow.formatXY _ _ _ _
  | drw => exact Laws.EncodeInRow.formatXYN _ _ _ _
  | skp | sknp | ldVxDt | ldVxKey | ldDtVx | ldStVx | addI | ldFont | ldBcd | ldMemRegs | ldRegsMem =>
    exact Laws.EncodeInRow.formatXS _ _ _

theorem rowOf_mem_opcodeTable (i : Instr) : rowOf i ∈ opcodeTable := by
  cases i <;> (simp only [rowOf]; decide)

theorem exists_rowOf_of_mem : ∀ r ∈ opcodeTable, ∃ i, r = rowOf i := by
  simp [opcodeTable]

section Match

variable {mask value : Word}

/-- A field that the mask keeps whole is the match value's. -/
theorem extractLsb'_of_match {start len : Nat} (hmask : mask.extractLsb' start len = BitVec.allOnes len)
    (h : w &&& mask = value) : w.extractLsb' start len = value.extractLsb' start len := by
  rw [← h, BitVec.extractLsb'_and, hmask, BitVec.and_allOnes]

theorem fieldMajor_of_match (hmask : fieldMajor mask = BitVec.allOnes 4) (h : w &&& mask = value) :
    fieldMajor w = fieldMajor value := extractLsb'_of_match hmask h

theorem fieldN_of_match (hmask : fieldN mask = BitVec.allOnes 4) (h : w &&& mask = value) :
    fieldN w = fieldN value := extractLsb'_of_match hmask h

theorem fieldNN_of_match (hmask : fieldNN mask = BitVec.allOnes 8) (h : w &&& mask = value) :
    fieldNN w = fieldNN value := extractLsb'_of_match hmask h

end Match

/-- The fields that a row's mask keeps take the decoder to an instruction of that row. -/
theorem decodeWord_of_match (h : w &&& (rowOf i).mask = (rowOf i).value) :
    ∃ j, decodeWord w = .ok j ∧ rowOf j = rowOf i := by
  cases i with
  | cls | ret =>
    obtain rfl := BitVec.and_allOnes.symm.trans h
    exact ⟨_, rfl, rfl⟩
  | seReg | sneReg | ldReg | orReg | andReg | xorReg | addReg | subReg | shrReg | subnReg | shlReg =>
    simp only [rowOf] at h ⊢
    simp only [decodeWord, decodeAlu, fieldMajor_of_match rfl h, fieldN_of_match rfl h]
    exact ⟨_, rfl, rfl⟩
  | skp | sknp | ldVxDt | ldVxKey | ldDtVx | ldStVx | addI | ldFont | ldBcd | ldMemRegs | ldRegsMem =>
    simp only [rowOf] at h ⊢
    simp only [decodeWord, decodeKey, decodeMisc, fieldMajor_of_match rfl h, fieldNN_of_match rfl h]
    exact ⟨_, rfl, rfl⟩
  | jp | call | ldI | jpV0 | seImm | sneImm | ldImm | addImm | rnd | drw =>
    simp only [rowOf] at h ⊢
    simp only [decodeWord, fieldMajor_of_match rfl h]
    exact ⟨_, rfl, rfl⟩

/-! ### The obligations -/

/-- Settles O6: the fixed nibbles of an encoded word select its instruction, and the fields are its operands. -/
theorem encodedInstructionDecodesBack : Obligations.EncodedInstructionDecodesBack := decodeWord_encode

/-- Settles O7: the decoder's only instruction for a word is one the encoder puts back together to that word. -/
theorem decodedWordEncodesBack : Obligations.DecodedWordEncodesBack := fun _ _ => encode_of_decodeWord

/-- Settles O8: a decoded word is an encoded one and matches its row; a match fixes the fields the decoder reads. -/
theorem decoderIsTheDispatchTableMatch : Obligations.DecoderIsTheDispatchTableMatch := by
  have hmatch {w : Word} {i : Instr} (h : decodeWord w = .ok i) : w &&& (rowOf i).mask = (rowOf i).value :=
    encode_of_decodeWord h ▸ encode_and_mask i
  refine ⟨rfl, fun w i h => ⟨rowOf_mem_opcodeTable i, hmatch h⟩, fun w r hr h => ?_, fun w hno => ?_⟩
  · obtain ⟨i, rfl⟩ := exists_rowOf_of_mem r hr
    exact decodeWord_of_match h
  · obtain ⟨i, h⟩ | ⟨h, -⟩ := decodeWord_ok_or_illegal w
    · exact absurd (hmatch h) (hno _ (rowOf_mem_opcodeTable i))
    · exact h

/-- Settles O9: the decoder refuses only illegal words, and a word that decodes is an encoded one, which is legal. -/
theorem legalWordsAreTheDecodableWords : Obligations.LegalWordsAreTheDecodableWords := by
  refine fun w => ⟨fun hl => ?_, fun ⟨i, h⟩ => ?_⟩
  · obtain hi | ⟨-, hl'⟩ := decodeWord_ok_or_illegal w
    · exact hi
    · exact absurd hl (ne_true_of_eq_false hl')
  · rw [← encode_of_decodeWord h]
    exact legalWord_encode i

/-- Settles O5: each word is its instruction's encoding, and the two illegal ones fail their major opcode's test. -/
theorem decodesWordsWrittenOutFromTheTable : Obligations.DecodesWordsWrittenOutFromTheTable :=
  ⟨decodeWord_encode .cls, decodeWord_encode .ret, decodeWord_encode (.jp 0x234), decodeWord_encode (.call 0xFFE),
    decodeWord_encode (.seImm 1 0x05), decodeWord_encode (.sneImm 2 0x08), decodeWord_encode (.seReg 1 2),
    decodeWord_encode (.ldImm 1 0xFF), decodeWord_encode (.addImm 15 0x02), decodeWord_encode (.shlReg 15 2),
    decodeWord_encode (.sneReg 1 2), decodeWord_encode (.ldI 0x20C), decodeWord_encode (.jpV0 0x3FE),
    decodeWord_encode (.rnd 3 0x0F), decodeWord_encode (.drw 1 2 5), decodeWord_encode (.sknp 1),
    decodeWord_encode (.ldRegsMem 2), rfl, rfl⟩

end Sys2Proof
end

section
/-! SUPPORT. The engine cycle of one `Step` (R80 to R88): what fetch answers, the decode failure, the halt, the status. -/

namespace Sys2Proof.Machine

open Sys2Proof.Stmt

variable {s t : State}

/-! ### Fetch -/

theorem toNat_bytesWord (hi lo : Byte) : (bytesWord hi lo).toNat = hi.toNat * 256 + lo.toNat := by
  rw [bytesWord, BitVec.toNat_append, ← Nat.shiftLeft_add_eq_or_of_lt lo.isLt, Nat.shiftLeft_eq]

theorem stepCommand_of_fetchWord_error {f : Fault} (hf : fetchWord s = .error f) : stepCommand s = .fault f := by
  simp only [stepCommand, hf]

theorem fetchWord_of_pc_ge (h : 4096 ≤ s.pc.toNat) : fetchWord s = .ok Config.invalidOpcode := if_pos h

theorem fetchWord_of_pc_eq (h : s.pc.toNat = 4095) : fetchWord s = .error .fetchStraddle := by
  obtain ⟨hge, -⟩ | ⟨-, hf⟩ | ⟨hlt, -⟩ := fetchWord_cases s
  · omega
  · exact hf
  · omega

/-- The sentinel is an illegal word (R81). -/
theorem decodeWord_invalidOpcode : decodeWord Config.invalidOpcode = .error (.illegalOpcode Config.invalidOpcode) :=
  rfl

/-! ### The decode failure and the halt -/

theorem stepCommand_of_decodeWord_error {w : Word} {e : DecodeError} (hw : fetchWord s = .ok w)
    (he : decodeWord w = .error e) : stepCommand s = .next (s.setPc 4096) := by
  simp only [stepCommand, hw, runWord, he]
  rfl

theorem decodeWord_of_illegal {w : Word} (h : legalWord w = false) : decodeWord w = .error (.illegalOpcode w) := by
  obtain hi | ⟨he, -⟩ := decodeWord_ok_or_illegal w
  · exact absurd ((legalWordsAreTheDecodableWords w).mpr hi) (ne_true_of_eq_false h)
  · exact he

/-- A halted machine fetches the sentinel, so its `Step` is the decode failure again (R87). -/
theorem stepCommand_of_halted (h : s.halted = true) : stepCommand s = .next (s.setPc 4096) :=
  stepCommand_of_decodeWord_error (fetchWord_of_pc_ge (of_decide_eq_true h)) decodeWord_invalidOpcode

/-! ### Runs that keep a property -/

/-- A property from which every step goes on, and which it keeps, holds after a run of any length. -/
theorem exists_completes_of_step_keeps {P : State → Prop} (hstep : ∀ s, P s → ∃ t, step s = .next t ∧ P t) (n : Nat)
    (hs : P s) : ∃ t, Completes n s t ∧ P t := by
  induction n generalizing s with
  | zero => exact ⟨s, rfl, hs⟩
  | succ n ih =>
    obtain ⟨u, hu, hPu⟩ := hstep s hs
    obtain ⟨t, ht, hPt⟩ := ih hPu
    exact ⟨t, (run_succ_of_next hu n).trans ht, hPt⟩

theorem faultFree_of_completes (h : ∀ n, ∃ t, Completes n s t) : FaultFree s := by
  intro n f hf
  obtain ⟨t, ht⟩ := h n
  cases ht.symm.trans hf

/-- Agreement in the elements that the schedule leaves alone, `PC` aside (R220, R233). -/
def SameBody (s t : State) : Prop :=
  t.mem = s.mem ∧ t.v = s.v ∧ t.i = s.i ∧ t.stack = s.stack ∧ t.sp = s.sp ∧ t.screen = s.screen

theorem sameBody_afterStep (h : SameBody s t) : SameBody s (afterStep t) := by
  obtain ⟨hmem, hv, hi, hstack, hsp, hscreen⟩ := h
  obtain ⟨hmem', hv', hi', -, hstack', hsp', hscreen', -⟩ := afterStep_frame t
  exact ⟨hmem'.trans hmem, hv'.trans hv, hi'.trans hi, hstack'.trans hstack, hsp'.trans hsp, hscreen'.trans hscreen⟩

/-- One step from a halted state that still has the body of `s`. -/
theorem step_of_halted (h : t.halted = true) (hb : SameBody s t) :
    ∃ u, step t = .next u ∧ u.pc = 4096 ∧ SameBody s u := by
  obtain ⟨-, -, -, hpc, -⟩ := afterStep_frame (t.setPc 4096)
  exact ⟨afterStep (t.setPc 4096), step_next_iff.mpr ⟨_, stepCommand_of_halted h, rfl⟩, hpc, sameBody_afterStep hb⟩

theorem halted_of_pc (h : s.pc = 4096) : s.halted = true := by
  simp [State.halted, h]

theorem exists_completes_of_halted (h : s.halted = true) (n : Nat) :
    ∃ t, Completes (n + 1) s t ∧ t.pc = 4096 ∧ SameBody s t := by
  obtain ⟨u, hu, hPu⟩ := step_of_halted h ⟨rfl, rfl, rfl, rfl, rfl, rfl⟩
  obtain ⟨t, ht, hPt⟩ := exists_completes_of_step_keeps (P := fun t => t.pc = 4096 ∧ SameBody s t)
    (fun t ⟨hpc, hb⟩ => step_of_halted (halted_of_pc hpc) hb) n hPu
  exact ⟨t, (run_succ_of_next hu n).trans ht, hPt⟩

/-! ### The status -/

theorem stepStatus_of_next (h : stepCommand s = .next t) : stepStatus s = some (statusOf s) := by
  simp only [stepStatus, h]

theorem statusOf_of_decodeWord_error {w : Word} {e : DecodeError} (hw : fetchWord s = .ok w)
    (he : decodeWord w = .error e) : statusOf s = .decodeFailure := by
  simp only [statusOf, hw, he]

theorem statusOf_of_ldVxKey {w : Word} {x : Reg} (hw : fetchWord s = .ok w) (hi : decodeWord w = .ok (.ldVxKey x)) :
    statusOf s = if s.keyWaits then .waiting else .advanced := by
  simp only [statusOf, hw, hi]

theorem statusOf_of_ne_ldVxKey {w : Word} {i : Instr} (hw : fetchWord s = .ok w) (hi : decodeWord w = .ok i)
    (hne : ∀ x, i ≠ .ldVxKey x) : statusOf s = .advanced := by
  cases i
  case ldVxKey x => exact absurd rfl (hne x)
  all_goals simp only [statusOf, hw, hi]

theorem advancePc_rewindPc (s : State) : s.advancePc.rewindPc = s := by
  simp [State.advancePc, State.rewindPc, State.setPc]

/-- The advance of `PC` is no full turn of the 16-bit counter (R82). -/
theorem advancePc_pc_ne (s : State) : s.advancePc.pc ≠ s.pc := by
  simp only [State.advancePc, State.setPc_pc]
  bv_omega

/-- What the status says of a `Step` that gave a next state: an `FX0A` that waits and changes nothing, a decode failure,
or an instruction that ran and was no such wait (R88). -/
theorem stepStatus_cases (h : stepCommand s = .next t) : ∃ w, fetchWord s = .ok w ∧
    ((stepStatus s = some .waiting ∧ (∃ x, decodeWord w = .ok (.ldVxKey x)) ∧ t = s) ∨
    (stepStatus s = some .decodeFailure ∧ (∃ e, decodeWord w = .error e) ∧ t = s.setPc 4096) ∨
    (stepStatus s = some .advanced ∧ (∃ i, decodeWord w = .ok i) ∧
      ¬((∃ x, decodeWord w = .ok (.ldVxKey x)) ∧ t.pc = s.pc))) := by
  rw [stepStatus_of_next h]
  obtain ⟨w, i, hw, hi, hexec⟩ | ⟨w, e, hw, he, ht⟩ := stepCommand_next_cases h
  · refine ⟨w, hw, ?_⟩
    by_cases hkey : ∃ x, i = .ldVxKey x
    · obtain ⟨x, rfl⟩ := hkey
      have hwaits : s.advancePc.keyWaits = s.keyWaits := rfl
      cases hexec
      rw [statusOf_of_ldVxKey hw hi, hwaits]
      split
      · exact .inl ⟨rfl, ⟨x, hi⟩, advancePc_rewindPc s⟩
      · exact .inr (.inr ⟨rfl, ⟨_, hi⟩, fun ⟨_, hpc⟩ => advancePc_pc_ne s hpc⟩)
    · rw [statusOf_of_ne_ldVxKey hw hi fun x hx => hkey ⟨x, hx⟩]
      refine .inr (.inr ⟨rfl, ⟨i, hi⟩, fun ⟨⟨x, hx⟩, _⟩ => hkey ⟨x, ?_⟩⟩)
      exact Except.ok.inj (hi.symm.trans hx)
  · exact ⟨w, hw, .inr (.inl ⟨congrArg some (statusOf_of_decodeWord_error hw he), ⟨e, he⟩, ht⟩)⟩

/-! ### The obligations -/

/-- Settles O12: the three cases of fetch, its fault being the step's, and the sentinel's decoding. -/
theorem fetchIsBigEndianOrSentinel : Obligations.FetchIsBigEndianOrSentinel := by
  refine ⟨fun s h => ⟨_, fetchWord_of_pc_lt h, toNat_bytesWord _ _⟩, fun s h => fetchWord_of_pc_ge h, fun s h => ?_,
    fun i hi => ?_⟩
  · have hf := fetchWord_of_pc_eq h
    exact ⟨hf, step_fault_iff.mpr (stepCommand_of_fetchWord_error hf)⟩
  · cases decodeWord_invalidOpcode.symm.trans hi

/-- Settles O13: an illegal word does not decode, and the decode failure only sets `PC`. -/
theorem illegalWordHalts : Obligations.IllegalWordHalts := fun _ hpc hl =>
  stepCommand_of_decodeWord_error (fetchWord_of_pc_lt hpc) (decodeWord_of_illegal hl)

/-- Settles O15: every step of a halted machine is the decode failure on the sentinel, followed by the schedule, which
leaves `PC` at 4096 and the rest as it was. -/
theorem haltedRunsStayHalted : Obligations.HaltedRunsStayHalted := by
  refine fun s h => ⟨faultFree_of_completes fun n => ?_, exists_completes_of_halted h⟩
  cases n with
  | zero => exact ⟨s, rfl⟩
  | succ n =>
    obtain ⟨t, ht, -⟩ := exists_completes_of_halted h n
    exact ⟨t, ht⟩

/-- Settles O19: the three cases of the status exclude one another, and each fixes its own clauses. -/
theorem statusSaysWhatTheStepDid : Obligations.StatusSaysWhatTheStepDid := by
  intro s t h
  obtain ⟨w, hw, ⟨hst, ⟨x, hx⟩, rfl⟩ | ⟨hst, ⟨e, he⟩, rfl⟩ | ⟨hst, ⟨i, hi⟩, hno⟩⟩ := stepStatus_cases h
  · exact ⟨w, hw, by simp [hst, hx]⟩
  · exact ⟨w, hw, by simp [hst, he, State.setPc]⟩
  · rw [hst]
    exact ⟨w, hw, iff_of_false nofun hno, nofun, iff_of_false nofun (· i hi), nofun, fun _ _ => rfl⟩

/-- Settles O11: the word below 4095 decodes to the instruction, whose handler runs once with `PC` advanced. -/
theorem stepRunsTheDecodedInstruction : Obligations.StepRunsTheDecodedInstruction := by
  intro s i hpc hi
  have h : stepCommand s = exec i s.advancePc := stepCommand_of_fetchWord (fetchWord_of_pc_lt hpc) hi
  exact ⟨h, (step_eq_mapNext s).trans (congrArg (mapNext afterStep) h)⟩

end Sys2Proof.Machine
end

section
/-! SUPPORT. The model's own fields beside a `Step` (R89, R90): it carries the place in the frame on, reads the random
input for a `CXNN` only, and the schedule of the frame follows it. -/

namespace Sys2Proof.Machine

open Sys2Proof.Stmt

variable {s t : State}

/-! ### The place in the frame and the random input -/

/-- A state with the place in the frame and the random input (bytes known, free draws) changed, each by a function. -/
def State.mapOwn (s : State) (fk : Fin 9 → Fin 9) (fr : List Byte × Nat → List Byte × Nat) : State :=
  (s.setSlot (fk s.slot)).setRnd (fr (s.rndQueue, s.rndDraws)).1 (fr (s.rndQueue, s.rndDraws)).2

section MapOwn

variable (s) (fk : Fin 9 → Fin 9) (fr : List Byte × Nat → List Byte × Nat)

theorem execRnd_mapOwn (x : Reg) (nn : Byte) :
    execRnd x nn (s.mapOwn fk id) = mapNext (·.mapOwn fk id) (execRnd x nn s) := by
  simp only [execRnd, takeRnd_eq_setRnd]
  rfl

theorem execLdVxKey_mapOwn (x : Reg) :
    execLdVxKey x (s.mapOwn fk fr) = mapNext (·.mapOwn fk fr) (execLdVxKey x s) :=
  congrArg Host.Outcome.next (apply_ite (State.mapOwn · fk fr) (s.keyWaits = true) s.rewindPc
    (s.setReg x s.reportedKey)).symm

/-- A handler carries the place in the frame on, and the random input too unless it is a `CXNN`'s. -/
theorem exec_mapOwn (i : Instr) (hrnd : ∀ x nn, i = .rnd x nn → fr = id) :
    exec i (s.mapOwn fk fr) = mapNext (·.mapOwn fk fr) (exec i s) := by
  cases i
  case drw | ldBcd | ldMemRegs | ldRegsMem => exact withDataRange_eq_mapNext rfl rfl
  case rnd x nn =>
    obtain rfl := hrnd x nn rfl
    exact execRnd_mapOwn s fk x nn
  case ldVxKey x => exact execLdVxKey_mapOwn s fk fr x
  all_goals rfl

/-- So does the `Step` command, for it fetches and decodes the same word. -/
theorem stepCommand_mapOwn (hrnd : ∀ w x nn, fetchWord s = .ok w → decodeWord w = .ok (.rnd x nn) → fr = id) :
    stepCommand (s.mapOwn fk fr) = mapNext (·.mapOwn fk fr) (stepCommand s) := by
  have hfetch : fetchWord (s.mapOwn fk fr) = fetchWord s := rfl
  cases hw : fetchWord s with
  | error f =>
    rw [stepCommand_of_fetchWord_error hw, stepCommand_of_fetchWord_error (hfetch.trans hw)]
    rfl
  | ok w =>
    cases hi : decodeWord w with
    | error e =>
      rw [stepCommand_of_decodeWord_error hw hi, stepCommand_of_decodeWord_error (hfetch.trans hw) hi]
      rfl
    | ok i =>
      rw [stepCommand_of_fetchWord hw hi, stepCommand_of_fetchWord (hfetch.trans hw) hi]
      exact exec_mapOwn s.advancePc fk fr i fun x nn h => hrnd w x nn hw (h ▸ hi)

end MapOwn

theorem stepCommand_setSlot (s : State) (k : Fin 9) :
    stepCommand (s.setSlot k) = mapNext (·.setSlot k) (stepCommand s) :=
  stepCommand_mapOwn s (fun _ => k) id fun _ _ _ _ _ => rfl

theorem stepCommand_setRnd (hrnd : ∀ w x nn, fetchWord s = .ok w → decodeWord w ≠ .ok (.rnd x nn)) (q : List Byte)
    (n : Nat) : stepCommand (s.setRnd q n) = mapNext (·.setRnd q n) (stepCommand s) :=
  stepCommand_mapOwn s id (fun _ => (q, n)) fun w x nn hw hi => absurd hi (hrnd w x nn hw)

theorem stepWith_eq_mapNext (rnd : Byte) (s : State) :
    stepWith rnd s = mapNext (·.setRnd s.rndQueue s.rndDraws)
      (stepCommand (s.setRnd (rnd :: s.rndQueue) s.rndDraws)) := by
  unfold stepWith
  cases stepCommand (s.setRnd (rnd :: s.rndQueue) s.rndDraws) <;> rfl

/-- Away from `CXNN` the input of `Step(rnd)` goes in and out unread (R89). -/
theorem stepWith_of_not_rnd (hrnd : ∀ w x nn, fetchWord s = .ok w → decodeWord w ≠ .ok (.rnd x nn)) (b : Byte) :
    stepWith b s = mapNext (·.setRnd s.rndQueue s.rndDraws) (stepCommand s) := by
  rw [stepWith_eq_mapNext, stepCommand_setRnd hrnd, mapNext_mapNext]
  rfl

/-- A `Step` leaves the schedule's fields alone: the place in the frame and the frame inputs. -/
theorem stepCommand_keeps_schedule (h : stepCommand s = .next t) :
    t.slot = s.slot ∧ t.frameQueue = s.frameQueue ∧ t.frameDraws = s.frameDraws := by
  obtain ⟨w, i, -, -, h⟩ | ⟨w, e, -, -, rfl⟩ := stepCommand_next_cases h
  · have hslot : t.slot = s.slot := exec_changesOnly h .slot (by cases i <;> simp [mayWrite])
    exact ⟨hslot, exec_changesOnly h .frameInput (by cases i <;> simp [mayWrite])⟩
  · exact ⟨rfl, rfl, rfl⟩

/-! ### The end of a frame -/

theorem afterStep_of_slot_lt (h : s.slot.val < 8) : afterStep s = s.setSlot (s.slot + 1) :=
  if_neg (Fin.ne_of_lt h)

theorem afterStep_of_slot_eq (h : s.slot.val = 8) : afterStep s = endFrame (s.setSlot 0) :=
  if_pos (Fin.ext h)

theorem toNat_timerDown (b : Byte) : (timerDown b).toNat = b.toNat - 1 := by
  unfold timerDown
  split <;> rename_i hb
  · simp [hb]
  · bv_omega

/-- The end of a frame, field by field (R220, R233). -/
theorem endFrame_eq (s : State) : endFrame s = { s with
    dt := timerDown s.dt, st := timerDown s.st, prevKeyMask := s.keyMask, keyMask := s.nextFrameInput.keys
    shouldDraw := s.shouldDraw && !s.nextFrameInput.present, frameQueue := s.frameQueue.tail
    frameDraws := if s.frameQueue.isEmpty then s.frameDraws + 1 else s.frameDraws } := by
  rw [endFrame, takeFrameInput_eq_setFrameIn]
  rfl

theorem nextFrameInput_of_cons {f : FrameInput} {fs : List FrameInput} (h : s.frameQueue = f :: fs) :
    s.nextFrameInput = f := by
  simp only [State.nextFrameInput, h]

/-! ### Nine steps -/

theorem stepCommands_succ_of_next (h : stepCommand s = .next t) (n : Nat) :
    stepCommands (n + 1) s = stepCommands n t := by
  simp only [stepCommands, h]

theorem stepCommands_succ_of_stop {o : Outcome} (h : stepCommand s = o) (ho : ∀ t, o ≠ .next t) (n : Nat) :
    stepCommands (n + 1) s = o := by
  cases o with
  | next t => exact absurd rfl (ho t)
  | fault f | refused r => simp only [stepCommands, h]

/-- A run and a sequence of `Step` commands stop alike, so they agree when they do after a first `Step` that goes on. -/
theorem run_succ_eq_mapNext {f : State → State} {n : Nat}
    (h : ∀ t, stepCommand s = .next t → Sys2Proof.core.run n (afterStep t) = mapNext f (stepCommands n t)) :
    Sys2Proof.core.run (n + 1) s = mapNext f (stepCommands (n + 1) s) := by
  have hstep {o : Outcome} (hs : stepCommand s = o) : step s = mapNext afterStep o := hs ▸ step_eq_mapNext s
  cases hs : stepCommand s with
  | next t =>
    rw [stepCommands_succ_of_next hs, ← h t hs]
    exact run_succ_of_next (hstep hs) n
  | fault r =>
    rw [stepCommands_succ_of_stop hs nofun]
    exact run_succ_of_fault (hstep hs) n
  | refused r =>
    rw [stepCommands_succ_of_stop hs nofun]
    exact run_succ_of_refused (hstep hs) n

theorem stepCommands_setSlot (n : Nat) (s : State) (k : Fin 9) :
    stepCommands n (s.setSlot k) = mapNext (·.setSlot k) (stepCommands n s) := by
  induction n generalizing s with
  | zero => rfl
  | succ n ih =>
    simp only [stepCommands, stepCommand_setSlot]
    cases stepCommand s with
    | next t => exact ih t
    | fault f => rfl
    | refused r => rfl

/-- From any place in the frame the machine's steps up to the ninth are as many `Step` commands and the frame's end. -/
theorem run_to_frame_end (n : Nat) (h : s.slot.val + n = 8) :
    Sys2Proof.core.run (n + 1) s = mapNext (endFrame ∘ (·.setSlot 0)) (stepCommands (n + 1) s) := by
  induction n generalizing s with
  | zero =>
    refine run_succ_eq_mapNext fun t ht => ?_
    obtain ⟨hslot, -⟩ := stepCommand_keeps_schedule ht
    rw [afterStep_of_slot_eq (hslot ▸ h)]
    rfl
  | succ n ih =>
    refine run_succ_eq_mapNext fun t ht => ?_
    obtain ⟨hslot, -⟩ := stepCommand_keeps_schedule ht
    have hlt : t.slot.val < 8 := by omega
    have hnext : (t.setSlot (t.slot + 1)).slot.val + n = 8 := by
      rw [State.setSlot_slot, Fin.val_add_one_of_lt hlt]
      omega
    rw [afterStep_of_slot_lt hlt, ih hnext, stepCommands_setSlot, mapNext_mapNext]
    rfl

/-! ### The obligations -/

/-- Settles O20: with no `CXNN` at `PC` either byte goes in and out of the `Step` unread. -/
theorem randomInputMattersOnlyToRnd : Obligations.RandomInputMattersOnlyToRnd := fun _ b c hrnd =>
  (stepWith_of_not_rnd hrnd b).trans (stepWith_of_not_rnd hrnd c).symm

/-- Settles O21: the `Step` leaves the schedule's fields alone, so the schedule that follows is that of the state
before it, and the end of a frame is given field by field. -/
theorem tickFollowsTheNinthStep : Obligations.TickFollowsTheNinthStep := by
  intro s t h
  obtain ⟨hslot, hqueue, hdraws⟩ := stepCommand_keeps_schedule h
  rw [step_eq_mapNext, h, ← hslot, ← hqueue]
  refine ⟨fun hlt => congrArg Host.Outcome.next (afterStep_of_slot_lt hlt), fun heq => ?_⟩
  refine ⟨_, congrArg Host.Outcome.next ((afterStep_of_slot_eq heq).trans (endFrame_eq _)), rfl, toNat_timerDown t.dt,
    toNat_timerDown t.st, rfl, fun f fs hf => ?_, fun hf => ?_, rfl⟩
  · have hin : (t.setSlot 0).nextFrameInput = f := nextFrameInput_of_cons hf
    simp [hin, hf]
  · exact ⟨congrArg List.tail hf, by simp [hf], fun hd => (Bool.and_eq_true_iff.mp hd).1, (t.setSlot 0).nextFrameInput,
      rfl, rfl⟩

/-- Settles O22: the nine steps carry the place in the frame on to its end, and the nine `Step` commands do not see it. -/
theorem nineStepsMakeOneFrame : Obligations.NineStepsMakeOneFrame := by
  intro s h
  have h0 : s.setSlot 0 = s := h ▸ rfl
  rw [run_to_frame_end 8 (by rw [h]; rfl), ← mapNext_mapNext, ← stepCommands_setSlot, h0]

end Sys2Proof.Machine
end

section
/-! SUPPORT. Control transfer (R100 to R110): the skips, the jump to itself, and calls unwound by as many returns. -/

namespace Sys2Proof.Machine

open Sys2Proof.Stmt

variable {s t : State}

/-! ### Skips -/

/-- A skip under a test that decides `p` (R108). -/
theorem skipIf_eq_of_iff {c : Bool} {p : Prop} [Decidable p] (h : c = true ↔ p) (s : State) :
    s.skipIf c = { s with pc := if p then s.pc + 2 else s.pc } := by
  simp only [State.skipIf, State.setPc, h]

/-- `5XYn` and `9XYn` with `n` other than 0 are illegal (R68, R106, R107). -/
theorem decodeWord_ne_ok_of_skip_neighbour {m n : Nibble} (hm : m = 0x5#4 ∨ m = 0x9#4) (hn : n ≠ 0) (x y : Reg)
    (i : Instr) : decodeWord (m ++ regBits x ++ regBits y ++ n) ≠ .ok i := by
  intro hi
  have hlegal := (legalWordsAreTheDecodableWords _).mpr ⟨i, hi⟩
  rw [legalWord_major5_or_major9 (by rwa [fieldMajor_regRegNibble]), fieldN_regRegNibble] at hlegal
  exact hn hlegal

/-! ### The jump to its own address -/

theorem fetchWord_congr (hpc : t.pc = s.pc) (hmem : t.mem = s.mem) : fetchWord t = fetchWord s := by
  simp only [fetchWord, hpc, hmem]

/-- One step at a jump to its own address, from a state with the `PC` and the body of `s` (R101). -/
theorem step_of_selfJump {nnn : Addr} (hw : fetchWord s = .ok (0x1#4 ++ nnn)) (hs : s.pc = addrWord nnn)
    (hpc : t.pc = s.pc) (hb : SameBody s t) : ∃ u, step t = .next u ∧ u.pc = s.pc ∧ SameBody s u := by
  have hcmd : stepCommand t = .next (t.advancePc.setPc (addrWord nnn)) :=
    stepCommand_of_fetchWord ((fetchWord_congr hpc hb.1).trans hw) (decodeWord_encode (.jp nnn))
  obtain ⟨-, -, -, hpc', -⟩ := afterStep_frame (t.advancePc.setPc (addrWord nnn))
  exact ⟨_, step_next_iff.mpr ⟨_, hcmd, rfl⟩, hpc'.trans hs.symm, sameBody_afterStep hb⟩

/-! ### Calls and returns -/

theorem execAll_append_of_next {is : List Instr} (h : execAll is s = .next t) (js : List Instr) :
    execAll (is ++ js) s = execAll js t := by
  induction is generalizing s with
  | nil =>
    cases h
    rfl
  | cons i is ih =>
    simp only [List.cons_append, execAll] at h ⊢
    cases hi : exec i s with
    | next u =>
      rw [hi] at h
      exact ih h
    | fault | refused =>
      rw [hi] at h
      cases h

/-- `u` is `s` but for `PC` and at most the `n` stack entries from `stack[SP]` upward, modulo 16. -/
def SameButStackTop (n : Nat) (s u : State) : Prop :=
  u = { s with pc := u.pc, stack := u.stack } ∧ ∀ k, n ≤ (k - s.sp).toNat → u.stackAt k = s.stackAt k

/-- A return after the call of `s`, once what ran between them has left the call's stack entry alone. -/
theorem exec_ret_of_call {n : Nat} {nnn : Addr} (hn : n < 16)
    (h : SameButStackTop n ((s.push s.pc).setPc (addrWord nnn)) t) :
    ∃ u, exec .ret t = .next u ∧ u.pc = s.pc ∧ SameButStackTop (n + 1) s u := by
  obtain ⟨heq, hkeep⟩ := h
  have hsp : t.sp - 1 = s.sp := by
    rw [heq]
    exact BitVec.add_sub_cancel s.sp 1
  have hentry : t.stackAt s.sp = s.pc := by
    have hlast : n ≤ (s.sp - (s.sp + 1)).toNat := by bv_omega
    exact (hkeep s.sp hlast).trans ((stackAt_push s s.pc s.sp).trans (if_pos rfl))
  refine ⟨_, rfl, (congrArg t.stackAt hsp).trans hentry, ?_, fun k hk => ?_⟩
  · have hpop : t.pop = t.setSp s.sp := congrArg t.setSp hsp
    rw [hpop, heq]
    rfl
  · have hne : k ≠ s.sp := by bv_omega
    have hk' : n ≤ (k - (s.sp + 1)).toNat := by bv_omega
    exact (hkeep k hk').trans ((stackAt_push s s.pc k).trans (if_neg hne))

/-- Up to sixteen calls and as many returns: the entries of at most sixteen calls in a row are different ones. -/
theorem execAll_calls_returns (targets : List Addr) (s : State) (h : targets.length ≤ 16) :
    ∃ t u, execAll (targets.map .call) s = .next t ∧ execAll (List.replicate targets.length .ret) t = .next u ∧
      (targets ≠ [] → u.pc = s.pc) ∧ SameButStackTop targets.length s u := by
  induction targets generalizing s with
  | nil => exact ⟨s, s, rfl, rfl, nofun, rfl, fun _ _ => rfl⟩
  | cons a targets ih =>
    have hlt : targets.length < 16 := h
    obtain ⟨t, r, hcalls, hrets, -, hr⟩ := ih ((s.push s.pc).setPc (addrWord a)) hlt.le
    obtain ⟨u, hu, hpc, hsame⟩ := exec_ret_of_call hlt hr
    refine ⟨t, u, hcalls, ?_, fun _ => hpc, hsame⟩
    rw [List.length_cons, List.replicate_succ', execAll_append_of_next hrets]
    simp only [execAll, hu]

/-! ### The obligations -/

/-- Settles O16: the step at the jump loads `PC` with the address it had, and the schedule leaves it and the body. -/
theorem selfJumpNeverHaltsNorFaults : Obligations.SelfJumpNeverHaltsNorFaults := by
  intro s nnn hpc hlt hword n
  have hs : s.pc = addrWord nnn := BitVec.eq_of_toNat_eq (hpc.trans (toNat_addrWord nnn).symm)
  have hw : fetchWord s = .ok (0x1#4 ++ nnn) := hword ▸ fetchWord_of_pc_lt (by omega)
  obtain ⟨t, ht, htpc, hb⟩ := exists_completes_of_step_keeps (P := fun t => t.pc = s.pc ∧ SameBody s t)
    (fun _ ⟨hpc, hb⟩ => step_of_selfJump hw hs hpc hb) n ⟨rfl, rfl, rfl, rfl, rfl, rfl, rfl⟩
  have hhalt : t.halted = false := decide_eq_false (by rw [htpc]; omega)
  exact ⟨t, ht, htpc, hhalt, hb⟩

/-- Settles O29: the four words are the encoder's, their neighbours are illegal, each test decides its comparison. -/
theorem skipsAddTwoWhenTheComparisonHolds : Obligations.SkipsAddTwoWhenTheComparisonHolds := by
  refine ⟨fun x nn => ⟨decodeWord_encode (.seImm x nn), decodeWord_encode (.sneImm x nn), fun s => ⟨?_, ?_⟩⟩,
    fun x y => ⟨decodeWord_encode (.seReg x y), decodeWord_encode (.sneReg x y), fun n i hn => ⟨?_, ?_⟩,
      fun s => ⟨?_, ?_⟩⟩⟩
  · exact congrArg Host.Outcome.next (skipIf_eq_of_iff beq_iff_eq s)
  · exact congrArg Host.Outcome.next (skipIf_eq_of_iff bne_iff_ne s)
  · exact decodeWord_ne_ok_of_skip_neighbour (.inl rfl) hn x y i
  · exact decodeWord_ne_ok_of_skip_neighbour (.inr rfl) hn x y i
  · exact congrArg Host.Outcome.next (skipIf_eq_of_iff beq_iff_eq s)
  · exact congrArg Host.Outcome.next (skipIf_eq_of_iff bne_iff_ne s)

/-- Settles O30: the calls unwind by induction on the targets, and `SP` is among the elements left as they were. -/
theorem sixteenNestedCallsUnwind : Obligations.SixteenNestedCallsUnwind := by
  intro targets s h
  obtain ⟨t, u, hcalls, hrets, hpc, heq, -⟩ := execAll_calls_returns targets s h
  exact ⟨t, u, hcalls, hrets, by rw [heq], hpc, heq⟩

/-- Settles O26: the word is the encoder's, and the handler sets `SP` and `PC`. -/
theorem returnPopsTheStackIntoPc : Obligations.ReturnPopsTheStackIntoPc := ⟨decodeWord_encode .ret, fun _ => rfl⟩

/-- Settles O27: the word is the encoder's, and the stack is read after the push. -/
theorem callPushesTheAdvancedPc : Obligations.CallPushesTheAdvancedPc := by
  refine fun nnn => ⟨decodeWord_encode (.call nnn), fun s => ⟨_, rfl, toNat_addrWord nnn, rfl, ?_, fun k hk => ?_, rfl⟩⟩
  · exact (stackAt_push s s.pc s.sp).trans (if_pos rfl)
  · exact (stackAt_push s s.pc k).trans (if_neg hk)

/-- Settles O28: the words are the encoder's, and the targets as numbers are `NNN` and the unmasked sum. -/
theorem jumpsLoadPc : Obligations.JumpsLoadPc := fun nnn =>
  ⟨decodeWord_encode (.jp nnn), decodeWord_encode (.jpV0 nnn), fun s =>
    ⟨⟨_, rfl, toNat_addrWord nnn, rfl⟩, _, rfl, toNat_indexedTarget s nnn, rfl⟩⟩

end Sys2Proof.Machine
end

section
/-! SUPPORT. The register ALU (R120 to R134): one rule for a register write, one for a result and its flag, and the
numbers that results and flags stand for. -/

namespace Sys2Proof.Machine

open Sys2Proof.Stmt

variable {s : State} {i : Instr} {x : Reg}

/-! ### What a handler that ends in a register write leaves -/

theorem writesRegister_of_exec {b : Byte} (h : exec i s = .next (s.setReg x b)) : WritesRegister i x s b :=
  ⟨_, h, rfl, State.reg_setReg_self s x b, fun _ hr => State.reg_setReg_of_ne s hr b⟩

theorem reg_writeResultFlag_result (hx : x ≠ vf) (s : State) (b : Byte) (c : Bool) :
    (s.writeResultFlag x b c).reg x = b := by
  rw [reg_writeResultFlag, if_neg hx, if_pos rfl]

theorem reg_writeResultFlag_of_ne {r : Reg} (hr : r ≠ x) (hf : r ≠ vf) (s : State) (b : Byte) (c : Bool) :
    (s.writeResultFlag x b c).reg r = s.reg r := by
  rw [reg_writeResultFlag, if_neg hf, if_neg hr]

/-- The rule of R121, with result and flag given as the numbers the bytes stand for. -/
theorem writesResultAndFlag_of_exec {b : Byte} {c : Bool} {result flag : Nat}
    (h : exec i s = .next (s.writeResultFlag x b c)) (hresult : b.toNat = result)
    (hflag : (flagByte c).toNat = flag) : WritesResultAndFlag i x s result flag := by
  refine ⟨_, h, rfl, ?_, fun hx => ?_, fun r hr hf => reg_writeResultFlag_of_ne hr hf s b c⟩
  · rw [vf_writeResultFlag, hflag]
  · rw [reg_writeResultFlag_result hx, hresult]

/-! ### Results and flags as numbers -/

theorem toNat_flagByte (c : Bool) : (flagByte c).toNat = c.toNat := by
  cases c <;> rfl

theorem toNat_flagByte_decide (p : Prop) [Decidable p] : (flagByte (decide p)).toNat = if p then 1 else 0 := by
  by_cases h : p <;> simp [flagByte, h]

/-- A difference modulo 256 (R129, R131). -/
theorem toNat_byte_sub (a b : Byte) :
    (a - b).toNat = if b.toNat ≤ a.toNat then a.toNat - b.toNat else a.toNat + 256 - b.toNat := by
  rw [BitVec.toNat_sub]
  split <;> omega

theorem toNat_byte_shiftLeft_one (b : Byte) : (b <<< 1).toNat = b.toNat * 2 % 256 := by
  rw [BitVec.toNat_shiftLeft, Nat.shiftLeft_eq]

theorem toNat_byte_shiftRight_one (b : Byte) : (b >>> 1).toNat = b.toNat / 2 := by
  rw [BitVec.toNat_ushiftRight, Nat.shiftRight_eq_div_pow]

theorem toNat_flagByte_carryOut (a b : Byte) :
    (flagByte (carryOut a b)).toNat = if 255 < a.toNat + b.toNat then 1 else 0 :=
  toNat_flagByte_decide _

theorem toNat_flagByte_noBorrow (a b : Byte) :
    (flagByte (noBorrow a b)).toNat = if a.toNat < b.toNat then 0 else 1 := by
  rw [noBorrow, toNat_flagByte_decide]
  split <;> split <;> omega

theorem toNat_flagByte_lowBit (b : Byte) : (flagByte (lowBit b)).toNat = b.toNat % 2 := by
  rw [toNat_flagByte, lowBit, BitVec.getLsbD, Nat.toNat_testBit, Nat.pow_zero, Nat.div_one]

theorem toNat_flagByte_highBit (b : Byte) : (flagByte (highBit b)).toNat = b.toNat / 128 := by
  rw [toNat_flagByte, highBit, BitVec.getLsbD, Nat.toNat_testBit]
  omega

/-! ### The random byte -/

theorem exec_rnd_of_cons {b : Byte} {rest : List Byte} (h : s.rndQueue = b :: rest) (x : Reg) (nn : Byte) :
    exec (.rnd x nn) s = .next ((s.setRnd rest s.rndDraws).setReg x (b &&& nn)) := by
  simp only [exec, execRnd, State.takeRnd, State.nextRnd, h]

theorem exec_rnd_of_nil (h : s.rndQueue = []) (x : Reg) (nn : Byte) :
    exec (.rnd x nn) s =
      .next ((s.setRnd s.rndQueue (s.rndDraws + 1)).setReg x (Config.freeRnd s.rndDraws &&& nn)) := by
  simp only [exec, execRnd, State.takeRnd, State.nextRnd, h]

/-! ### The obligations -/

/-- Settles O31: the words are the encoder's, and each handler is one register write. -/
theorem loadsAndAddByteWriteOneRegister : Obligations.LoadsAndAddByteWriteOneRegister := by
  refine ⟨fun x nn => ⟨decodeWord_encode (.ldImm x nn), decodeWord_encode (.addImm x nn), fun s => ⟨?_, ?_⟩⟩,
    fun x y => ⟨decodeWord_encode (.ldReg x y), fun s => writesRegister_of_exec rfl⟩⟩
  · exact writesRegister_of_exec rfl
  · have hsum : s.reg x + nn = BitVec.ofNat 8 (((s.reg x).toNat + nn.toNat) % 256) :=
      BitVec.eq_of_toNat_eq (by simp)
    exact hsum ▸ writesRegister_of_exec rfl

/-- Settles O32: the words are the encoder's, and each handler writes its result and then a cleared flag. -/
theorem logicInstructionsClearTheFlag : Obligations.LogicInstructionsClearTheFlag := fun x y =>
  ⟨decodeWord_encode (.orReg x y), decodeWord_encode (.andReg x y), decodeWord_encode (.xorReg x y), fun _ =>
    ⟨writesResultAndFlag_of_exec rfl (BitVec.toNat_or _ _) rfl,
      writesResultAndFlag_of_exec rfl (BitVec.toNat_and _ _) rfl,
      writesResultAndFlag_of_exec rfl (BitVec.toNat_xor _ _) rfl⟩⟩

/-- Settles O33: the words are the encoder's, and carry and not-borrow come from the operands before the write. -/
theorem addAndSubtractSetCarryOrNotBorrow : Obligations.AddAndSubtractSetCarryOrNotBorrow := fun x y =>
  ⟨decodeWord_encode (.addReg x y), decodeWord_encode (.subReg x y), decodeWord_encode (.subnReg x y), fun _ =>
    ⟨writesResultAndFlag_of_exec rfl (BitVec.toNat_add _ _) (toNat_flagByte_carryOut _ _),
      writesResultAndFlag_of_exec rfl (toNat_byte_sub _ _) (toNat_flagByte_noBorrow _ _),
      writesResultAndFlag_of_exec rfl (toNat_byte_sub _ _) (toNat_flagByte_noBorrow _ _)⟩⟩

/-- Settles O34: the words are the encoder's, and the lost bit is the remainder or quotient of `V[Y]`. -/
theorem shiftsTakeVyAndLoseOneBitIntoVf : Obligations.ShiftsTakeVyAndLoseOneBitIntoVf := fun x y =>
  ⟨decodeWord_encode (.shrReg x y), decodeWord_encode (.shlReg x y), fun _ =>
    ⟨writesResultAndFlag_of_exec rfl (toNat_byte_shiftRight_one _) (toNat_flagByte_lowBit _),
      writesResultAndFlag_of_exec rfl (toNat_byte_shiftLeft_one _) (toNat_flagByte_highBit _)⟩⟩

/-- Settles O35: the word is the encoder's; the byte is the head of the queue, or a free one when the queue is empty. -/
theorem randomByteUnderMask : Obligations.RandomByteUnderMask := by
  refine fun x nn => ⟨decodeWord_encode (.rnd x nn), fun s b rest hq => ?_, fun s hq => ?_⟩
  · exact ⟨_, exec_rnd_of_cons hq x nn, State.reg_setReg_self _ x _, fun _ hr => State.reg_setReg_of_ne _ hr _, rfl⟩
  · exact ⟨_, exec_rnd_of_nil hq x nn, ⟨_, State.reg_setReg_self _ x _⟩, fun _ hr => State.reg_setReg_of_ne _ hr _, rfl⟩

end Sys2Proof.Machine
end

section
/-! SUPPORT. The index register and memory (R150 to R158): the numbers that `I` takes, the block of registers stored at
`I` and loaded from there, and the digits of `FX33`. -/

namespace Sys2Proof.Machine

open Sys2Proof.Stmt

variable {s t : State} {x : Reg}

/-! ### The numbers that `I` takes -/

theorem toNat_zext16 (b : Byte) : (zext16 b).toNat = b.toNat :=
  BitVec.toNat_setWidth_of_le (by decide)

theorem toNat_and_lowNibble (w : Word) : (w &&& 0x0F).toNat = w.toNat % 16 := by
  rw [BitVec.toNat_and]
  exact Nat.and_two_pow_sub_one_eq_mod w.toNat 4

theorem toNat_fontAddress_corrected (b : Byte) :
    (fontAddress .corrected b).toNat = 0x50 + 5 * (b.toNat % 16) := by
  have hlow : (zext16 b &&& 0x0F).toNat = b.toNat % 16 := by rw [toNat_and_lowNibble, toNat_zext16]
  simp only [fontAddress]
  bv_omega

theorem toNat_fontAddress_source (b : Byte) : (fontAddress .source b).toNat = (0x50 + b.toNat) % 16 := by
  have hsum : (0x50 + zext16 b).toNat = 0x50 + b.toNat := by
    have := toNat_zext16 b
    bv_omega
  rw [fontAddress, toNat_and_lowNibble, hsum]

/-- A block inside memory leaves `I` at most 4096, so the sum of R155 and R156 does not wrap. -/
theorem toNat_add_blockLength {w : Word} (h : w.toNat + x.val < 4096) :
    (w + BitVec.ofNat 16 (x.val + 1)).toNat = w.toNat + x.val + 1 := by
  rw [BitVec.toNat_add, BitVec.toNat_ofNat]
  omega

/-! ### The range check, inside and outside memory (R157) -/

theorem withDataRange_of_le {n : Nat} (h : s.i.toNat + n ≤ 4096) (t : State) : withDataRange n s t = .next t :=
  withDataRange_next_iff.mpr ⟨.inr h, rfl⟩

theorem withDataRange_of_lt {n : Nat} (hn : n ≠ 0) (h : 4096 < s.i.toNat + n) (t : State) :
    withDataRange n s t = .fault .dataAddressOutOfRange :=
  withDataRange_fault_iff.mpr ⟨⟨hn, h⟩, rfl⟩

/-! ### Stores at `I` -/

/-- In canonical memory a store at `I` that lies inside memory puts its `k`-th byte at `I + k`. -/
theorem get_writeBytes_dataAddr (hm : s.mem.wf = true) {bs : List Byte} (h : s.i.toNat + bs.length ≤ 4096) (k : Nat)
    (hk : k < bs.length) : (writeBytes s.mem (s.dataAddr 0) bs).get (s.dataAddr k) = bs[k] :=
  get_writeBytes_inside hm bs h k hk

/-- The digits of `FX33` are the decimal digits of the byte (R154). -/
theorem bcdDigits_decimal (b : Byte) : ∃ hundreds tens ones : Byte, bcdDigits b = [hundreds, tens, ones] ∧
    hundreds.toNat * 100 + tens.toNat * 10 + ones.toNat = b.toNat ∧ tens.toNat < 10 ∧ ones.toNat < 10 := by
  refine ⟨_, _, _, rfl, ?_⟩
  simp only [BitVec.toNat_ofNat]
  omega

/-! ### The block of registers at `I` -/

theorem block_inRange_of_next {u : State} (h : withDataRange (x.val + 1) s u = .next t) :
    s.i.toNat + x.val < 4096 ∧ t = u := by
  obtain ⟨hr, ht⟩ := withDataRange_next_iff.mp h
  exact ⟨hr.resolve_left (Nat.succ_ne_zero _), ht⟩

/-- In canonical memory `FX55` leaves `V[r]` at `I + r` (R155). -/
theorem get_firstRegs_stored (hm : s.mem.wf = true) (h : s.i.toNat + x.val < 4096) {r : Reg} (hr : r ≤ x) :
    (writeBytes s.mem (s.dataAddr 0) (firstRegs s.v x)).get (s.dataAddr r.val) = s.reg r := by
  have hlen := length_firstRegs s.v x
  have hk : r.val < (firstRegs s.v x).length := hlen ▸ Nat.lt_succ_of_le hr
  rw [get_writeBytes_dataAddr hm (by omega) r.val hk]
  exact getElem_firstRegs s.v x r.val hk

/-- `FX65` leaves the byte at `I + r` in `V[r]` (R156). -/
theorem reg_of_ldRegsMem (h : exec (.ldRegsMem x) s = .next t) {r : Reg} (hr : r ≤ x) :
    t.reg r = s.mem.get (s.dataAddr r.val) := by
  obtain ⟨-, rfl⟩ := withDataRange_next_iff.mp h
  have hin : 0 ≤ r.val ∧ r.val < 0 + (readBytes s.mem (s.dataAddr 0) (x.val + 1)).length := by
    rw [length_readBytes, Nat.zero_add]
    exact ⟨Nat.zero_le _, Nat.lt_succ_of_le hr⟩
  refine (getElem_loadRegs s.v 0 _ r.val r.isLt).trans ?_
  rw [dif_pos hin, getElem_readBytes]
  rfl

/-- `FX65` leaves a register above `V[X]` as it was (R26, R156). -/
theorem reg_of_ldRegsMem_of_lt (h : exec (.ldRegsMem x) s = .next t) {r : Reg} (hr : x < r) : t.reg r = s.reg r := by
  refine exec_changesOnly h (.reg r) ?_
  have hne (y : Reg) (hy : y ≤ x) : r ≠ y := (hy.trans_lt hr).ne'
  simpa [mayWrite] using hne

/-! ### The obligations -/

/-- Settles O38: the word is the encoder's, and the font address is a number in either mode. -/
theorem fontAddressUnderBothModes : Obligations.FontAddressUnderBothModes := by
  refine fun x => ⟨decodeWord_encode (.ldFont x), fun s => ⟨_, rfl, rfl, fun hmode => ?_, fun hmode => ?_⟩⟩
  · rw [State.setI_i, hmode, toNat_fontAddress_corrected]
  · rw [State.setI_i, hmode, toNat_fontAddress_source]

/-- Settles O39: the three bytes stored are the decimal digits, and the range check is of just these three. -/
theorem bcdStoresThreeDigits : Obligations.BcdStoresThreeDigits := by
  refine fun x => ⟨decodeWord_encode (.ldBcd x), fun s => ⟨fun h => ?_, fun h => withDataRange_of_lt (by decide) h _⟩⟩
  refine ⟨_, withDataRange_of_le h _, rfl, fun a ha => ?_, fun hm => ?_⟩
  · exact get_writeBytes_of_outside s.mem (s.dataAddr 0) a (bcdDigits (s.reg x)) ha
  · obtain ⟨d₂, d₁, d₀, hd, hdecimal⟩ := bcdDigits_decimal (s.reg x)
    have hget := get_writeBytes_dataAddr hm (bs := [d₂, d₁, d₀]) h
    rw [State.setMem_mem, hd, hget 0 (by simp), hget 1 (by simp), hget 2 (by simp)]
    exact hdecimal

/-- Settles O40: the word is the encoder's, and the block stored is exactly the bytes that the range check covers. -/
theorem storeRegistersWritesTheBlock : Obligations.StoreRegistersWritesTheBlock := by
  refine fun x => ⟨decodeWord_encode (.ldMemRegs x), fun s => ⟨fun h => ?_, fun h => ?_⟩⟩
  · refine ⟨_, withDataRange_of_le h _, toNat_add_blockLength h, rfl, fun a ha => ?_,
      fun hm r hr => get_firstRegs_stored hm h hr⟩
    refine get_writeBytes_of_outside s.mem (s.dataAddr 0) a _ (ha.imp_right fun ha => ?_)
    rw [length_firstRegs]
    exact ha
  · exact withDataRange_of_lt (Nat.succ_ne_zero _) (Nat.lt_succ_of_le h) _

/-- Settles O41: the word is the encoder's; a loaded register reads its byte of the block, one above is not written. -/
theorem loadRegistersReadsTheBlock : Obligations.LoadRegistersReadsTheBlock := by
  refine fun x => ⟨decodeWord_encode (.ldRegsMem x), fun s => ⟨fun h => ?_, fun h => ?_⟩⟩
  · have hexec : exec (.ldRegsMem x) s = .next _ := withDataRange_of_le h _
    exact ⟨_, hexec, toNat_add_blockLength h, rfl, fun r => reg_of_ldRegsMem hexec,
      fun r => reg_of_ldRegsMem_of_lt hexec⟩
  · exact withDataRange_of_lt (Nat.succ_ne_zero _) (Nat.lt_succ_of_le h) _

/-- Settles O42: what the handlers add to `I` stands in their next states; the reload reads at the same addresses the
bytes that the store left there, and the store's range check is the load's. -/
theorem blockRoundTripAndWhatAdvancesIndex : Obligations.BlockRoundTripAndWhatAdvancesIndex := by
  refine ⟨fun x s t h => ?_, fun x s t h => ?_, fun x s t h => ?_, fun x y n s t h => ?_,
    fun x s t u hm h hmem hi => ?_⟩
  · obtain ⟨-, rfl⟩ := block_inRange_of_next h
    rfl
  · obtain ⟨-, rfl⟩ := block_inRange_of_next h
    rfl
  · exact exec_changesOnly h .i rfl
  · exact exec_changesOnly h .i rfl
  · obtain ⟨hlt, rfl⟩ := block_inRange_of_next h
    have hload : exec (.ldRegsMem x) u = .next _ := withDataRange_of_le (hi ▸ hlt) _
    have haddr (k : Nat) : u.dataAddr k = s.dataAddr k := congrArg (·.toNat + k) hi
    refine ⟨_, hload, fun r hr => ?_, congrArg (· + BitVec.ofNat 16 (x.val + 1)) hi⟩
    rw [reg_of_ldRegsMem hload hr, haddr, hmem]
    exact get_firstRegs_stored hm hlt hr

/-- Settles O36: the word is the encoder's, and the handler sets `I`. -/
theorem loadIndexImmediate : Obligations.LoadIndexImmediate := fun nnn =>
  ⟨decodeWord_encode (.ldI nnn), fun _ => ⟨_, rfl, toNat_addrWord nnn, rfl⟩⟩

/-- Settles O37: the word is the encoder's, and the sum of two 16-bit words wraps modulo 65536. -/
theorem addToIndexWrapsAtSixteenBits : Obligations.AddToIndexWrapsAtSixteenBits := by
  refine fun x => ⟨decodeWord_encode (.addI x), fun s => ⟨_, rfl, ?_, rfl⟩⟩
  rw [State.setI_i, BitVec.toNat_add, toNat_zext16]

end Sys2Proof.Machine
end

section
/-! SUPPORT. The display (R170 to R175): the mask a sprite lays over each row, what a draw leaves in every pixel, and
the collision its flag reports. -/

namespace Sys2Proof.Machine

open Sys2Proof.Stmt

/-! ### Rows and pixels -/

theorem row_ne_zero_iff {r : Row} : r ≠ 0 ↔ ∃ px : Fin 64, r.getLsbD (63 - px.val) = true := by
  constructor
  · intro hne
    by_contra hoff
    refine hne (BitVec.eq_of_getLsbD_eq fun k hk => ?_)
    have hbit := not_exists.mp hoff ⟨63 - k, by omega⟩
    rw [Nat.sub_sub_self (Nat.le_of_lt_succ hk), Bool.not_eq_true] at hbit
    exact hbit.trans BitVec.getLsbD_zero.symm
  · rintro ⟨px, hbit⟩ rfl
    exact Bool.false_ne_true (BitVec.getLsbD_zero.symm.trans hbit)

/-- Rows are equal when their difference has no pixel. -/
theorem screen_ext {s t : State} (h : ∀ px py, s.pixel px py = t.pixel px py) : s.screen = t.screen := by
  refine Vector.ext fun j hj => ?_
  refine BitVec.xor_eq_zero_iff.mp (not_not.mp fun hne => ?_)
  obtain ⟨px, hbit⟩ := row_ne_zero_iff.mp hne
  have hpx : s.screen[j].getLsbD (63 - px.val) = t.screen[j].getLsbD (63 - px.val) := h px ⟨j, hj⟩
  rw [BitVec.getLsbD_xor, hpx, Bool.xor_self] at hbit
  exact Bool.false_ne_true hbit

/-! ### The mask of a sprite -/

/-- What a sprite with its top edge at row `y` lays over row `j`: its row `j - y`, or nothing (R171, R174). -/
def spriteMask (x0 y : Nat) (bs : List Byte) (j : Nat) : Row :=
  if h : y ≤ j ∧ j < y + bs.length then place bs[j - y] x0 else 0

theorem spriteMask_of_lt {x0 y j : Nat} (bs : List Byte) (h : j < y) : spriteMask x0 y bs j = 0 :=
  dif_neg fun hin => Nat.not_le.mpr h hin.1

@[simp] theorem spriteMask_nil (x0 y j : Nat) : spriteMask x0 y [] j = 0 :=
  dif_neg fun hin => Nat.not_lt.mpr hin.1 hin.2

@[simp] theorem spriteMask_cons_self (x0 y : Nat) (b : Byte) (bs : List Byte) :
    spriteMask x0 y (b :: bs) y = place b x0 := by
  simp [spriteMask]

theorem spriteMask_cons_of_ne {y j : Nat} (h : j ≠ y) (x0 : Nat) (b : Byte) (bs : List Byte) :
    spriteMask x0 y (b :: bs) j = spriteMask x0 (y + 1) bs j := by
  by_cases hin : y + 1 ≤ j ∧ j < y + 1 + bs.length
  · have hin' : y ≤ j ∧ j < y + (b :: bs).length := by simp only [List.length_cons]; omega
    have hidx : j - y = j - (y + 1) + 1 := by omega
    simp only [spriteMask, dif_pos hin, dif_pos hin', hidx, List.getElem_cons_succ]
  · have hin' : ¬(y ≤ j ∧ j < y + (b :: bs).length) := by simp only [List.length_cons]; omega
    simp only [spriteMask, dif_neg hin, dif_neg hin']

/-- A draw exclusive-ors the sprite's mask into every row (R171). -/
theorem getElem_drawRows_eq_xor (x0 : Nat) (g : Vector Row 32) (y : Nat) (bs : List Byte) (j : Nat) (hj : j < 32) :
    (drawRows x0 g y bs)[j] = g[j] ^^^ spriteMask x0 y bs j := by
  rw [getElem_drawRows, spriteMask]
  split
  · rfl
  · exact BitVec.xor_zero.symm

theorem rowHit_iff {g : Vector Row 32} {y : Nat} {m : Row} :
    rowHit g y m = true ↔ ∃ j : Fin 32, j.val = y ∧ g[j.val] &&& m ≠ 0 := by
  unfold rowHit
  split
  next hy =>
    rw [bne_iff_ne]
    refine ⟨fun hm => ⟨⟨y, hy⟩, rfl, hm⟩, ?_⟩
    rintro ⟨j, rfl, hm⟩
    exact hm
  next hy =>
    refine ⟨fun hf => absurd hf Bool.false_ne_true, ?_⟩
    rintro ⟨j, rfl, -⟩
    exact absurd j.isLt hy

/-- Each sprite row meets its row of the screen as it was before the draw: the rows drawn earlier are others (R175). -/
theorem drawHit_iff {x0 : Nat} {g : Vector Row 32} {y : Nat} {bs : List Byte} :
    drawHit x0 g y bs = true ↔ ∃ j : Fin 32, g[j.val] &&& spriteMask x0 y bs j ≠ 0 := by
  induction bs generalizing g y with
  | nil => simp [drawHit]
  | cons b bs ih =>
    rw [drawHit, Bool.or_eq_true, rowHit_iff, ih, ← exists_or]
    refine exists_congr fun j => ?_
    by_cases hj : j.val = y
    · subst hj
      rw [spriteMask_of_lt bs (Nat.lt_succ_self _), spriteMask_cons_self]
      simp
    · rw [getElem_xorRow, if_neg hj, spriteMask_cons_of_ne hj]
      simp [hj]

/-! ### What `DXYN` leaves -/

/-- The bytes of the sprite of `DXYN`, top row first (R171). -/
def State.spriteBytes (s : State) (n : Nibble) : List Byte := readBytes s.mem (s.dataAddr 0) n.toNat

@[simp] theorem State.length_spriteBytes (s : State) (n : Nibble) : (s.spriteBytes n).length = n.toNat :=
  length_readBytes _ _ _

theorem State.getElem_spriteBytes (s : State) (n : Nibble) (k : Nat) (hk : k < (s.spriteBytes n).length) :
    (s.spriteBytes n)[k] = s.mem.get (s.i.toNat + k) :=
  getElem_readBytes s.mem (s.dataAddr 0) n.toNat k hk

/-- The next state of a `DXYN` with its top left corner at column `x0` and row `y0` (R171). -/
def State.drawnAt (s : State) (x0 y0 : Nat) (n : Nibble) : State :=
  ((s.setScreen (drawRows x0 s.screen y0 (s.spriteBytes n))).setReg vf
    (flagByte (drawHit x0 s.screen y0 (s.spriteBytes n)))).setShouldDraw true

/-- The next state of a `DXYN` that completes. -/
def State.drawn (s : State) (x y : Reg) (n : Nibble) : State :=
  s.drawnAt (spriteCol (s.reg x)) (spriteRow s.params.drawYModulus (s.reg y)) n

variable {s t : State} {x y : Reg} {n : Nibble}

/-- `DXYN` completes exactly when all N bytes lie inside memory (R46, R171). -/
theorem exec_drw_next_iff :
    exec (.drw x y n) s = .next t ↔ (n.toNat = 0 ∨ s.i.toNat + n.toNat ≤ 4096) ∧ t = s.drawn x y n :=
  withDataRange_next_iff

/-- The mask of the sprite of `DXYN`, pixel by pixel (R171 to R174). -/
theorem getLsbD_spriteMask (s : State) (x y : Reg) (n : Nibble) (px : Fin 64) (py : Fin 32) :
    (spriteMask (spriteCol (s.reg x)) (spriteRow s.params.drawYModulus (s.reg y)) (s.spriteBytes n) py).getLsbD
      (63 - px.val) = spriteBit s x y n px py := by
  unfold spriteMask spriteBit
  simp only [State.length_spriteBytes]
  split
  next hin =>
    obtain ⟨htop, hbottom⟩ := hin
    rw [State.getElem_spriteBytes, getLsbD_place _ _ _ px.isLt, ← Bool.decide_and]
    refine congrArg₂ and (decide_eq_decide.mpr ?_) rfl
    exact ⟨fun hcol => ⟨htop, hbottom, hcol⟩, fun ⟨_, _, hcol⟩ => hcol⟩
  next hout =>
    rw [decide_eq_false fun ⟨htop, hbottom, _⟩ => hout ⟨htop, hbottom⟩, Bool.false_and]
    exact BitVec.getLsbD_zero

theorem pixel_drawn (s : State) (x y : Reg) (n : Nibble) (px : Fin 64) (py : Fin 32) :
    (s.drawn x y n).pixel px py = (s.pixel px py ^^ spriteBit s x y n px py) := by
  rw [← getLsbD_spriteMask, State.pixel, State.pixel, ← BitVec.getLsbD_xor, ← getElem_drawRows_eq_xor]
  rfl

/-- Some lit pixel lies under a lit bit of the sprite (R175). -/
def Collides (s : State) (x y : Reg) (n : Nibble) : Prop :=
  ∃ px py, s.pixel px py = true ∧ spriteBit s x y n px py = true

theorem drawHit_iff_collides (s : State) (x y : Reg) (n : Nibble) :
    drawHit (spriteCol (s.reg x)) s.screen (spriteRow s.params.drawYModulus (s.reg y)) (s.spriteBytes n) = true ↔
      Collides s x y n := by
  rw [drawHit_iff, Collides, exists_comm]
  refine exists_congr fun py => row_ne_zero_iff.trans (exists_congr fun px => ?_)
  rw [BitVec.getLsbD_and, Bool.and_eq_true, getLsbD_spriteMask]
  rfl

theorem flagByte_eq_one_iff {c : Bool} : flagByte c = 1 ↔ c = true := by
  cases c <;> decide

theorem flagByte_eq_zero_iff {c : Bool} : flagByte c = 0 ↔ c = false := by
  cases c <;> decide

/-- VF is written last, also where it is `V[X]` or `V[Y]` (R171). -/
theorem vf_drawn (s : State) (x y : Reg) (n : Nibble) :
    (s.drawn x y n).reg 15 = flagByte
      (drawHit (spriteCol (s.reg x)) s.screen (spriteRow s.params.drawYModulus (s.reg y)) (s.spriteBytes n)) :=
  State.reg_setReg_self _ vf _

theorem vf_drawn_eq_one_iff : (s.drawn x y n).reg 15 = 1 ↔ Collides s x y n := by
  rw [vf_drawn, flagByte_eq_one_iff, drawHit_iff_collides]

theorem vf_drawn_eq_zero_iff : (s.drawn x y n).reg 15 = 0 ↔ ¬ Collides s x y n := by
  rw [vf_drawn, flagByte_eq_zero_iff, ← Bool.not_eq_true, drawHit_iff_collides]

/-! ### The moduli of `DRAW_Y_MODULUS` (R172) -/

/-- Apart from the parameters it carries on, a draw under `p` is one on `s` at the row that `p` gives. -/
theorem mapNext_exec_drw_params (x y : Reg) (n : Nibble) (s : State) (p : Params) :
    mapNext (fun t => { t with params := s.params }) (exec (.drw x y n) { s with params := p }) =
      withDataRange n.toNat s (s.drawnAt (spriteCol (s.reg x)) (spriteRow p.drawYModulus (s.reg y)) n) :=
  (withDataRange_eq_mapNext rfl rfl).symm

theorem spriteRow_m32_eq_m64 {b : Byte} (h : b.toNat % 64 < 32) : spriteRow .m32 b = spriteRow .m64 b := by
  simp only [spriteRow, DrawYModulus.toNat]
  omega

/-- A sprite whose top edge lies below the screen is clipped whole. -/
theorem spriteBit_of_row_ge (h : 32 ≤ spriteRow s.params.drawYModulus (s.reg y)) (px : Fin 64) (py : Fin 32) :
    spriteBit s x y n px py = false := by
  have hlt : py.val < spriteRow s.params.drawYModulus (s.reg y) := py.isLt.trans_le h
  rw [← getLsbD_spriteMask, spriteMask_of_lt _ hlt]
  exact BitVec.getLsbD_zero

theorem drawn_of_row_ge (h : 32 ≤ spriteRow s.params.drawYModulus (s.reg y)) :
    (s.drawn x y n).screen = s.screen ∧ (s.drawn x y n).reg 15 = 0 := by
  refine ⟨screen_ext fun px py => ?_, vf_drawn_eq_zero_iff.mpr ?_⟩
  · rw [pixel_drawn, spriteBit_of_row_ge h, Bool.xor_false]
  · rintro ⟨px, py, -, hbit⟩
    exact Bool.false_ne_true ((spriteBit_of_row_ge h px py).symm.trans hbit)

/-! ### The obligations -/

/-- Settles O45: the word is the encoder's, and a row of zeros has no lit pixel. -/
theorem clearScreenTurnsEveryPixelOff : Obligations.ClearScreenTurnsEveryPixelOff := by
  refine ⟨decodeWord_encode .cls, fun s => ⟨_, rfl, fun px py => ?_, rfl, rfl⟩⟩
  simp [State.pixel]

/-- Settles O46: the word is the encoder's; every row takes the sprite's mask, and a hit of masks is a hit of pixels. -/
theorem drawXorsTheSpriteAndDetectsCollision : Obligations.DrawXorsTheSpriteAndDetectsCollision := by
  refine fun x y n => ⟨decodeWord_encode (.drw x y n), fun s hr => ?_⟩
  have hrange : n.toNat = 0 ∨ s.i.toNat + n.toNat ≤ 4096 := hr.imp_left (congrArg BitVec.toNat)
  exact ⟨s.drawn x y n, exec_drw_next_iff.mpr ⟨hrange, rfl⟩, pixel_drawn s x y n, vf_drawn_eq_one_iff.mpr,
    vf_drawn_eq_zero_iff.mpr, fun r hne => State.reg_setReg_of_ne _ hne _, rfl, rfl⟩

/-- Settles O47: the second draw lays the same mask, and meets a lit pixel where the first one lit it. -/
theorem drawingTwiceRestoresTheScreen : Obligations.DrawingTwiceRestoresTheScreen := by
  intro x y n s t h
  obtain ⟨hrange, rfl⟩ := exec_drw_next_iff.mp h
  have hpixel (px py) : ((s.drawn x y n).setV s.v).pixel px py = (s.pixel px py ^^ spriteBit s x y n px py) :=
    pixel_drawn s x y n px py
  have hsprite (px py) : spriteBit ((s.drawn x y n).setV s.v) x y n px py = spriteBit s x y n px py := rfl
  refine ⟨((s.drawn x y n).setV s.v).drawn x y n, exec_drw_next_iff.mpr ⟨hrange, rfl⟩,
    screen_ext fun px py => ?_, ?_⟩
  · rw [pixel_drawn, hpixel, hsprite, Bool.xor_assoc, Bool.xor_self, Bool.xor_false]
  · refine vf_drawn_eq_one_iff.trans (exists_congr fun px => exists_congr fun py => ?_)
    rw [hpixel, hsprite]
    cases spriteBit s x y n px py <;> simp

/-- Settles O48: below the fold the two moduli give one row; from the fold on the sprite is clipped whole. -/
theorem drawModuliAgreeAboveTheFold : Obligations.DrawModuliAgreeAboveTheFold := by
  refine fun x y n s p32 p64 h32 h64 => ⟨fun hrow => ?_, fun hrow t h => ?_⟩
  · rw [mapNext_exec_drw_params, mapNext_exec_drw_params, h32, h64, spriteRow_m32_eq_m64 hrow]
  · obtain ⟨-, rfl⟩ := exec_drw_next_iff.mp h
    have hge : 32 ≤ spriteRow p64.drawYModulus (s.reg y) := h64 ▸ hrow
    obtain ⟨hscreen, hvf⟩ := drawn_of_row_ge (s := { s with params := p64 }) (x := x) (n := n) hge
    exact ⟨hscreen, hvf, rfl⟩

end Sys2Proof.Machine
end

section
/-! SUPPORT. Keys and timers (R190 to R198): when `FX0A` waits and what it reports under either `FX0A_MODE`, and when
the two modes agree. -/

namespace Sys2Proof.Machine

open Sys2Proof.Stmt

variable {s : State} {m : Word} {k : Nat}

/-! ### Masks -/

theorem ne_zero_of_getLsbD (hk : m.getLsbD k = true) : m ≠ 0 := by
  rintro rfl
  exact Bool.false_ne_true (BitVec.getLsbD_zero.symm.trans hk)

/-- `lowestBit` is the only index of a set bit with none set below it. -/
theorem lowestBit_eq (hk : m.getLsbD k = true) (hlow : ∀ j, j < k → m.getLsbD j = false) : lowestBit m = k := by
  obtain ⟨-, hbit, hbelow⟩ := lowestBit_spec (ne_zero_of_getLsbD hk)
  obtain hlt | heq | hgt := Nat.lt_trichotomy (lowestBit m) k
  · exact absurd ((hlow _ hlt).symm.trans hbit) Bool.false_ne_true
  · exact heq
  · exact absurd ((hbelow k hgt).symm.trans hk) Bool.false_ne_true

theorem getLsbD_and_not (a b : Word) (j : Nat) : (a &&& ~~~b).getLsbD j = (a.getLsbD j && !b.getLsbD j) := by
  rw [BitVec.getLsbD_and, BitVec.getLsbD_not]
  cases ha : a.getLsbD j with
  | false => rfl
  | true => rw [decide_eq_true (BitVec.lt_of_getLsbD ha), Bool.true_and]

theorem getLsbD_of_and_not_eq_zero {a b : Word} (h : a &&& ~~~b = 0) {j : Nat} (ha : a.getLsbD j = true) :
    b.getLsbD j = true := by
  have hbit := getLsbD_and_not a b j
  rw [h, ha] at hbit
  simpa using hbit

/-- A mask within another is at most it as a number. -/
theorem toNat_le_of_and_not_eq_zero {a b : Word} (h : a &&& ~~~b = 0) : a.toNat ≤ b.toNat := by
  have hand : a &&& b = a := by
    refine BitVec.eq_of_getLsbD_eq fun j _ => ?_
    rw [BitVec.getLsbD_and]
    cases ha : a.getLsbD j with
    | false => rfl
    | true => exact getLsbD_of_and_not_eq_zero h ha
  calc a.toNat = a.toNat &&& b.toNat := by rw [← BitVec.toNat_and, hand]
    _ ≤ b.toNat := Nat.and_le_right

/-! ### Released and changed keys -/

theorem getLsbD_releasedKeys (s : State) (j : Nat) :
    s.releasedKeys.getLsbD j = (s.prevKeyMask.getLsbD j && !s.keyMask.getLsbD j) :=
  getLsbD_and_not s.prevKeyMask s.keyMask j

theorem getLsbD_changedKeys (s : State) (j : Nat) :
    s.changedKeys.getLsbD j = (s.prevKeyMask.getLsbD j != s.keyMask.getLsbD j) :=
  BitVec.getLsbD_xor

/-- Without a press the changed keys are the released ones. -/
theorem changedKeys_eq_releasedKeys (h : s.keyMask &&& ~~~s.prevKeyMask = 0) : s.changedKeys = s.releasedKeys := by
  refine BitVec.eq_of_getLsbD_eq fun j _ => ?_
  rw [getLsbD_changedKeys, getLsbD_releasedKeys]
  cases hkey : s.keyMask.getLsbD j with
  | false => simp
  | true => simp [getLsbD_of_and_not_eq_zero h hkey]

/-! ### `FX0A` -/

theorem keyWaits_iff_of_edge (h : s.params.fx0aMode = .edge) : s.keyWaits = true ↔ s.releasedKeys = 0 := by
  rw [State.keyWaits, h]
  exact beq_iff_eq

theorem keyWaits_iff_of_source (h : s.params.fx0aMode = .source) :
    s.keyWaits = true ↔ s.prevKeyMask.toNat ≤ s.keyMask.toNat := by
  rw [State.keyWaits, h]
  exact decide_eq_true_iff

theorem reportedKey_of_edge (h : s.params.fx0aMode = .edge) :
    s.reportedKey = BitVec.ofNat 8 (lowestBit s.releasedKeys) := by
  rw [State.reportedKey, h]

theorem reportedKey_of_source (h : s.params.fx0aMode = .source) :
    s.reportedKey = BitVec.ofNat 8 (lowestBit s.changedKeys) := by
  rw [State.reportedKey, h]

theorem exec_ldVxKey_of_waits (h : s.keyWaits = true) (x : Reg) : exec (.ldVxKey x) s = .next s.rewindPc :=
  congrArg Host.Outcome.next (if_pos h)

theorem writesRegister_ldVxKey (h : ¬ s.keyWaits = true) (x : Reg) : WritesRegister (.ldVxKey x) x s s.reportedKey :=
  writesRegister_of_exec (congrArg Host.Outcome.next (if_neg h))

/-- Apart from the parameters it carries on, `FX0A` under `p` is one on `s` that waits and reports as `p` says. -/
theorem mapNext_exec_ldVxKey_params (x : Reg) (s : State) (p : Params) :
    mapNext (fun t => { t with params := s.params }) (exec (.ldVxKey x) { s with params := p }) =
      .next (if State.keyWaits { s with params := p } then s.rewindPc
        else s.setReg x (State.reportedKey { s with params := p })) :=
  congrArg Host.Outcome.next (apply_ite (fun t : State => { t with params := s.params }) _ _ _)

/-- Unless a press meets a release the comparison of the source mode is the test of the edge mode (R198). -/
theorem releasedKeys_eq_zero_iff (h : s.releasedKeys = 0 ∨ s.keyMask &&& ~~~s.prevKeyMask = 0) :
    s.releasedKeys = 0 ↔ s.prevKeyMask.toNat ≤ s.keyMask.toNat := by
  refine ⟨toNat_le_of_and_not_eq_zero, fun hle => h.elim id fun hpressed => ?_⟩
  have heq : s.prevKeyMask = s.keyMask :=
    BitVec.eq_of_toNat_eq (hle.antisymm (toNat_le_of_and_not_eq_zero hpressed))
  rw [State.releasedKeys, heq]
  exact BitVec.and_not_self _

/-! ### The sound timer -/

theorem beep_iff : s.beep = true ↔ s.st ≠ 0 := by
  rw [State.beep, decide_eq_true_iff, Nat.pos_iff_ne_zero, ← BitVec.toNat_ne_iff_ne]
  rfl

/-! ### The obligations -/

/-- Settles O49: the words are the encoder's, and each skip tests the bit of the key mask or its negation. -/
theorem keySkipsTestTheKeyMask : Obligations.KeySkipsTestTheKeyMask := by
  refine fun x => ⟨decodeWord_encode (.skp x), decodeWord_encode (.sknp x), fun s => ⟨?_, ?_⟩⟩
  · exact congrArg Host.Outcome.next (skipIf_eq_of_iff Iff.rfl s)
  · exact congrArg Host.Outcome.next (skipIf_eq_of_iff (Bool.not_eq_true' _).to_iff s)

/-- Settles O50: the words are the encoder's, and each handler is one write. -/
theorem timerMoves : Obligations.TimerMoves := fun x =>
  ⟨decodeWord_encode (.ldVxDt x), decodeWord_encode (.ldDtVx x), decodeWord_encode (.ldStVx x), fun _ =>
    ⟨writesRegister_of_exec rfl, rfl, _, rfl, rfl, beep_iff⟩⟩

/-- Settles O51: the word is the encoder's; each mode waits on its own test and reports the lowest bit of its mask. -/
theorem keyWaitRewindsOrReportsTheLowestKey : Obligations.KeyWaitRewindsOrReportsTheLowestKey := by
  refine fun x => ⟨decodeWord_encode (.ldVxKey x), fun s => ?_⟩
  simp only [← getLsbD_releasedKeys, ← getLsbD_changedKeys]
  refine ⟨fun hedge => ⟨fun hnone => ?_, fun k hk hlow => ?_⟩, fun hsource => ⟨fun hle => ?_, fun hlt k hk hlow => ?_⟩⟩
  · have hzero : s.releasedKeys = 0 :=
      BitVec.eq_of_getLsbD_eq fun j _ => (hnone j).trans BitVec.getLsbD_zero.symm
    exact exec_ldVxKey_of_waits ((keyWaits_iff_of_edge hedge).mpr hzero) x
  · rw [← lowestBit_eq hk hlow, ← reportedKey_of_edge hedge]
    exact writesRegister_ldVxKey (mt (keyWaits_iff_of_edge hedge).mp (ne_zero_of_getLsbD hk)) x
  · exact exec_ldVxKey_of_waits ((keyWaits_iff_of_source hsource).mpr hle) x
  · rw [← lowestBit_eq hk hlow, ← reportedKey_of_source hsource]
    exact writesRegister_ldVxKey (mt (keyWaits_iff_of_source hsource).mp (Nat.not_le.mpr hlt)) x

/-- Settles O52: the modes wait together, and where they report nothing was pressed, so the changed keys are the
released ones. -/
theorem keyWaitModesAgreeUnlessPressMeetsRelease : Obligations.KeyWaitModesAgreeUnlessPressMeetsRelease := by
  intro x s pe ps hedge hsource h
  have hwaitsEdge := keyWaits_iff_of_edge (s := { s with params := pe }) hedge
  have hwaitsSource := keyWaits_iff_of_source (s := { s with params := ps }) hsource
  have hwaits : State.keyWaits { s with params := pe } = State.keyWaits { s with params := ps } :=
    Bool.eq_iff_iff.mpr ((hwaitsEdge.trans (releasedKeys_eq_zero_iff h)).trans hwaitsSource.symm)
  rw [mapNext_exec_ldVxKey_params, mapNext_exec_ldVxKey_params, ← hwaits]
  split
  · rfl
  next hreports =>
    have hpressed := h.resolve_left (mt hwaitsEdge.mpr hreports)
    rw [reportedKey_of_edge (s := { s with params := pe }) hedge,
      reportedKey_of_source (s := { s with params := ps }) hsource]
    exact congrArg (fun m => Host.Outcome.next (s.setReg x (BitVec.ofNat 8 (lowestBit m))))
      (changedKeys_eq_releasedKeys (s := s) hpressed).symm

end Sys2Proof.Machine
end

section
/-! SUPPORT. What a step can end in (R211, R214), and the commands `Tick` and `PresentAck` (R220, R221, R233). -/

namespace Sys2Proof.Machine

open Sys2Proof.Stmt

/-! ### What a step can end in -/

/-- The machine's step refuses exactly when its `Step` does. -/
theorem step_refused_iff {s : State} {r : Refusal} : step s = .refused r ↔ stepCommand s = .refused r := by
  rw [step_eq_mapNext]
  cases stepCommand s <;> simp [mapNext]

/-- A `Step` is the fetch fault at 4095, or the handler of the word below 4095, or else the decode failure. -/
theorem stepCommand_cases (s : State) :
    (s.pc.toNat = 4095 ∧ stepCommand s = .fault .fetchStraddle) ∨
    (s.pc.toNat < 4095 ∧ ∃ i, decodeWord (bytesWord (s.mem.get s.pc.toNat) (s.mem.get (s.pc.toNat + 1))) = .ok i ∧
      stepCommand s = exec i s.advancePc) ∨
    (s.pc.toNat ≠ 4095 ∧
      (s.pc.toNat < 4095 →
        ∀ i, decodeWord (bytesWord (s.mem.get s.pc.toNat) (s.mem.get (s.pc.toNat + 1))) ≠ .ok i) ∧
      stepCommand s = .next (s.setPc 4096)) := by
  obtain ⟨hpc, hw⟩ | ⟨hpc, hf⟩ | ⟨hpc, hw⟩ := fetchWord_cases s
  · exact .inr (.inr ⟨by omega, by omega, stepCommand_of_decodeWord_error hw decodeWord_invalidOpcode⟩)
  · exact .inl ⟨hpc, stepCommand_of_fetchWord_error hf⟩
  · obtain ⟨i, hi⟩ | ⟨he, -⟩ :=
      decodeWord_ok_or_illegal (bytesWord (s.mem.get s.pc.toNat) (s.mem.get (s.pc.toNat + 1)))
    · exact .inr (.inl ⟨hpc, i, hi, stepCommand_of_fetchWord hw hi⟩)
    · exact .inr (.inr ⟨hpc.ne, fun _ i hi => (nomatch he.symm.trans hi), stepCommand_of_decodeWord_error hw he⟩)

/-! ### Any number of `Tick`s -/

/-- Each timer after `n` `Tick`s, Nat subtraction stopping at 0 as `timerDown` does (R221). -/
theorem toNat_timers_ticks (ks : List Word) (s : State) :
    (ticks ks s).dt.toNat = s.dt.toNat - ks.length ∧ (ticks ks s).st.toNat = s.st.toNat - ks.length := by
  induction ks generalizing s with
  | nil => exact ⟨rfl, rfl⟩
  | cons k ks ih =>
    obtain ⟨hdt, hst⟩ := ih (tick k s)
    have hdt' : (tick k s).dt.toNat = s.dt.toNat - 1 := toNat_timerDown s.dt
    have hst' : (tick k s).st.toNat = s.st.toNat - 1 := toNat_timerDown s.st
    rw [ticks, hdt, hst, hdt', hst', List.length_cons]
    omega

theorem beep_iff_toNat_pos {s : State} : s.beep = true ↔ 0 < s.st.toNat := decide_eq_true_iff

/-! ### The obligations -/

/-- Settles O18: the machine's step stops as its `Step` does, which is the fetch fault, a handler's fault (O17), or no
fault at all. -/
theorem stepFaultsExactlyInTheTwoListedCases : Obligations.StepFaultsExactlyInTheTwoListedCases := by
  intro s
  simp only [step_fault_iff, ne_eq, step_refused_iff]
  obtain ⟨hpc, h⟩ | ⟨hpc, i, hi, h⟩ | ⟨hpc, hno, h⟩ := stepCommand_cases s
  · simp [h, hpc, eq_comm]
  · obtain ⟨hfault, hrefused⟩ := handlerFaultsExactlyOutsideMemory i s.advancePc
    rw [h]
    refine ⟨fun f => (hfault f).trans ?_, hrefused⟩
    simp [hpc, hpc.ne, hi, State.advancePc]
  · rw [h]
    refine ⟨fun f => iff_of_false nofun ?_, nofun⟩
    rintro (⟨-, heq⟩ | ⟨-, hlt, i, hi, -⟩)
    · exact hpc heq
    · exact hno hlt i hi

/-- Settles O24: the timers by induction on the `Tick`s, and `beep` is whether `ST` has more left. -/
theorem timersCountTicksDownToZero : Obligations.TimersCountTicksDownToZero := by
  intro s ks
  obtain ⟨hdt, hst⟩ := toNat_timers_ticks ks s
  refine ⟨hdt, hst, ?_⟩
  rw [beep_iff_toNat_pos, hst, Nat.sub_pos_iff_lt]

/-- Settles O14: the predicate is its definition, and a halted machine's `Step` fetches the sentinel, which does not
decode. -/
theorem haltedPredicateAndNextStep : Obligations.HaltedPredicateAndNextStep := fun _ =>
  ⟨decide_eq_true_iff, stepCommand_of_halted⟩

/-- Settles O23: both timers go through `timerDown`, the masks move on, and `Tick` sets nothing else. -/
theorem tickDecrementsTimersAndShiftsKeys : Obligations.TickDecrementsTimersAndShiftsKeys := fun s keys =>
  ⟨tick keys s, rfl, toNat_timerDown s.dt, toNat_timerDown s.st, rfl, rfl, rfl⟩

/-- Settles O25: the command is the one write of `shouldDraw`. -/
theorem presentAckClearsShouldDrawOnly : Obligations.PresentAckClearsShouldDrawOnly := fun _ => rfl

end Sys2Proof.Machine
end

section
/-! SUPPORT. Where a session starts, and which ROMs start none (R250, R251, R252). -/

namespace Sys2Proof.Machine

open Sys2Proof.Stmt

/-- The first fetch after `Reset`: the ROM is stored from `PC` upward, over the memory that holds the font. -/
theorem fetchWord_resetState (p : Params) {rom : List Byte} (h : Fits rom) (hlen : 1 < rom.length) :
    fetchWord (resetState p rom) = .ok (bytesWord rom[0] rom[1]) :=
  have hle : 512 + rom.length ≤ Config.memSize := Nat.add_le_add_left h 512
  fetchWord_of_writeBytes (s := State.reset.setMem (writeBytes State.reset.mem Config.fontOffset p.font.toList))
    (wf_fontMem p) hlen hle rfl rfl

theorem resetWith_of_not_fits (p : Params) {rom : List Byte} (h : ¬ Fits rom) :
    resetWith p rom = .refused .romTooLarge :=
  if_neg (mt romFits_iff.mp h)

theorem resetWith_refused_iff {p : Params} {rom : List Byte} :
    resetWith p rom = .refused .romTooLarge ↔ ¬ Fits rom := by
  constructor
  · intro h hf
    cases (resetWith_of_fits p hf).symm.trans h
  · exact resetWith_of_not_fits p

/-! ### The obligations -/

/-- Settles O4: a frame starts at `Reset`, and `PC` is where the ROM starts. -/
theorem entryPointIsTheRomStart : Obligations.EntryPointIsTheRomStart := by
  intro p hi lo rest t h
  obtain ⟨hf, rfl⟩ := resetWith_next h
  have hlen : 1 < (hi :: lo :: rest).length := Nat.one_lt_succ_succ _
  exact ⟨rfl, _, fetchWord_resetState p hf hlen, toNat_bytesWord hi lo⟩

/-- Settles O2: the ROMs `Reset` refuses are those that do not fit. -/
theorem resetRefusesExactlyTheOversizeRoms : Obligations.ResetRefusesExactlyTheOversizeRoms := fun _ _ =>
  resetWith_refused_iff.trans Nat.not_le

end Sys2Proof.Machine
end
